-- ==== Sys2Proof/Word.lean ====
section
/-! DEFINITION. The word types of the ULV312 (spec 00 §5): bytes, 16-bit fields and 32-bit times, and the plainest
arithmetic on them. -/

namespace Sys2Proof

/-- One byte of a frame or a packet. -/
abbrev Byte := BitVec 8

/-- A 16-bit field: a selector, a serial, a pulse width, a sequence. -/
abbrev Half := BitVec 16

/-- A 32-bit time or tick count (00 §5.2). Times wrap. -/
abbrev Time := BitVec 32

/-- A station number 0–15 (00 §5.6). -/
abbrev Station := Fin 16

end Sys2Proof
end

