-- ==== Sys2Proof/Syntax.lean ====
section
/-! DEFINITION. The commands of the block: one constructor for each row of spec/opcode_table.json, with the data the row
brings from outside. A row that executes a host command (NOP to DRIVE) has no operand: its parameters are those of the
current command that the service port took at the end of a transaction (R172). -/

namespace Sys2Proof

/-- Where the line unit's LINE_ERRORS report stands among the other reports of one round boundary. The spec leaves it
open: "may be queued before or after them" (R60), "may stand before or after the STATE report" (R75). -/
inductive LineTurn where
  /-- before the PEER reports of the evaluation -/
  | first
  /-- after the PEER and ALONE reports, before a STATE report -/
  | middle
  /-- after every other report of the boundary -/
  | last
deriving DecidableEq, Repr

/-- What a row ROUND_BOUNDARY stands for. The evaluation hands the membership controller a split, a join or a join failure, which it
judges "against the state it finds" (R66), so that a STOP or a duplicate may come between the two (R73, R74, log 22). -/
inductive BoundaryEvent where
  /-- the boundary, what the evaluation hands the membership controller taken at once -/
  | whole (turn : LineTurn)
  /-- the boundary, what the evaluation hands the membership controller left to be taken later in the tick -/
  | evaluation (turn : LineTurn)
  /-- the membership controller takes what an evaluation has handed it -/
  | verdict
deriving DecidableEq, Repr

/-- What a row EDGE_QUALIFIED stands for. An entry with effect LOCAL hands the scheduler an insertion, which the scheduler takes "as
an event of its own" in the tick of the edge (R165, R96), so that a teardown may come between the two (R116, log 17). -/
inductive EdgeEvent where
  /-- an edge of the input, each insertion taken as soon as it is handed over, after those that wait -/
  | whole (input : Fin 8)
  /-- an edge of the input, its insertions left for the scheduler to take later in the tick -/
  | handOver (input : Fin 8)
  /-- the scheduler takes the insertion that was handed over first (R160) -/
  | insertion
deriving DecidableEq, Repr

/-- What a row FRAME_COMPLETION stands for, with the levels sampled on the line, one a bit time (true: recessive), that follow those
the receiver already holds of the frame in hand. The claim that an ACTION, AMEND or CANCEL makes on the action queue "is an event of
its own at the scheduler" (R136), and the REFUSE that answers a refusal is requested of the contention unit (R137), so that a teardown
may come before the one or the other (R19, R135, log 25). -/
inductive FrameEvent where
  /-- the samples, and what a frame that completes hands to scheduler and contention unit taken at once -/
  | whole (samples : List Bool)
  /-- the samples, the claim of a frame that completes left for the scheduler to take later in the tick -/
  | handOver (samples : List Bool)
  /-- the claim or request that was handed over first is taken, by the scheduler or the contention unit; a REFUSE that a claim
  makes is left -/
  | next
deriving DecidableEq, Repr

/-- The commands, one constructor per row of the table. -/
inductive Instr where
  /-- HARDWARE_RESET (R93): RESETN or power-on. -/
  | hardwareReset
  /-- TICK (R36): eight REFCLK periods have passed; bit `n` of `levels` is the level present on `INn` (set: high). -/
  | tick (levels : BitVec 8)
  /-- ROUND_BOUNDARY (R42): the boundary that the last tick reached is taken. -/
  | roundBoundary (event : BoundaryEvent)
  /-- LISTEN_WINDOW_EXPIRY (R80): the window count has reached W. -/
  | listenWindowExpiry
  /-- FIRING (R104): the entries whose due time the last tick reached fire. -/
  | firing
  /-- PULSE_END (R125): the pending trailing edge of `line` ends. -/
  | pulseEnd (line : Fin 8)
  /-- EDGE_QUALIFIED (R150): the run of an input has reached its filter length. -/
  | edgeQualified (event : EdgeEvent)
  /-- LINE_IDLE (R6): the line has been recessive for G. -/
  | lineIdle
  /-- IDLE_SLOT (R23): the next idle slot begins. -/
  | idleSlot
  /-- START_OF_FRAME (R8): a start edge is accepted in WAIT. -/
  | startOfFrame
  /-- FRAME_TRUNCATED (R6): a gap within a frame has reached 11 bit times. -/
  | frameTruncated
  /-- FRAME_COMPLETION (R7): the frame in RECEIVE completes or fails its checks. -/
  | frameCompletion (event : FrameEvent)
  /-- TRANSMISSION_SUCCESS (R31): the last stop bit of the own frame reads back as sent. -/
  | transmissionSuccess
  /-- READBACK_MISMATCH (R29): bit `bit` of the own frame (counted from 0 at its first start bit) was sent recessive and
  read dominant. -/
  | readbackMismatch (bit : Nat)
  /-- LINE_STUCK (R13): a dominant run has lasted longer than 20 bit times. -/
  | lineStuck
  /-- LINE_RELEASED (R14): the line has been recessive for 48 bit times. -/
  | lineReleased
  /-- TRANSACTION_BEGIN (R169): SEL falls. -/
  | transactionBegin
  /-- TRANSACTION_END (R171): SEL rises. The levels sampled on SDI, one at each rising edge of SCK (R168), are `bits`, those of
  the whole bytes, and after them `cut`, those of a byte cut off before its eighth bit (R171). -/
  | transactionEnd (bits : List Bool) (cut : List Bool)
  /-- NOP (R174): the current command NOP is executed. -/
  | nop
  /-- STATUS (R174) is executed. -/
  | status
  /-- CONFIGURE (R178) is executed. -/
  | configure
  /-- START (R77, R78) is executed. -/
  | start
  /-- STOP (R89, R90) is executed. -/
  | stop
  /-- POST (R175) is executed. -/
  | post
  /-- AMEND (R175) is executed. -/
  | amend
  /-- CANCEL (R175) is executed. -/
  | cancel
  /-- FIND (R118) is executed. -/
  | find
  /-- READ_LOG (R157) is executed. -/
  | readLog
  /-- READ_REPORTS (R182) is executed. -/
  | readReports
  /-- READ_PEERS (R68) is executed. -/
  | readPeers
  /-- SNAPSHOT (R159) is executed. -/
  | snapshot
  /-- DRIVE (R127) is executed. -/
  | drive
  /-- STUCK_RUN_END (R13): the line returns to recessive after a stuck run. -/
  | stuckRunEnd
  /-- REJECTED_START_EDGE (R1): a start bit was sampled recessive; the edge was a glitch. -/
  | rejectedStartEdge
deriving DecidableEq, Repr

end Sys2Proof
end

