-- ==== Sys2Proof/WellFormed.lean ====
section
/-! DEFINITION. When a command is well formed: its operands lie in the ranges the spec gives them. The bounds that a type
already carries (a line or an input 0–7) need no check. -/

namespace Sys2Proof

/-- The longest frame is 20 characters of 10 bit times (R1, R2). -/
def longestFrameBits : Nat := 200

/-- The longest time a frame takes on the line: its 20 characters with 19 gaps between them, each shorter than 11 bit times
(R2). -/
def longestReceptionBits : Nat := longestFrameBits + 19 * 10

/-- A well-formed command. The samples of one FRAME_COMPLETION are those of one frame with the gaps between its characters,
the bit of a READBACK_MISMATCH is a bit of an own frame, which is sent with no gap (R2, R11), and the levels of a transaction are those
of whole bytes and of fewer than eight bits cut off (R168, R171). -/
def Instr.wellFormed : Instr → Bool
  | .frameCompletion (.whole samples) | .frameCompletion (.handOver samples) => samples.length ≤ longestReceptionBits
  | .readbackMismatch bit => bit < longestFrameBits
  | .transactionEnd bits cut => bits.length % 8 = 0 && cut.length < 8
  | .frameCompletion .next | .hardwareReset | .tick _ | .roundBoundary _ | .listenWindowExpiry | .firing | .pulseEnd _ | .edgeQualified _
  | .lineIdle | .idleSlot | .startOfFrame | .frameTruncated | .transmissionSuccess | .lineStuck | .lineReleased
  | .transactionBegin | .nop | .status | .configure | .start | .stop | .post | .amend | .cancel
  | .find | .readLog | .readReports | .readPeers | .snapshot | .drive | .stuckRunEnd | .rejectedStartEdge => true

end Sys2Proof
end

