-- ==== Sys2Proof/Config.lean ====
section
/-! DEFINITION. What the part fixes: the capacities and constants that the spec states. The spec leaves no value to the
implementation and calls no result undefined, so there is no free value here. -/

namespace Sys2Proof.Config

/-- The part identity code of STATUS (R174). -/
def identity : Half := 0x3A12

/-- Places of the transmit queue (R18). -/
def transmitPlaces : Nat := 8

/-- Attempts after which a frame is abandoned (R29). -/
def attemptLimit : Nat := 8

/-- Places of the action queue (R94). -/
def actionPlaces : Nat := 32

/-- Places of the capture log (R155). -/
def logPlaces : Nat := 64

/-- Places of the report queue (R181). -/
def reportPlaces : Nat := 32

/-- The interframe gap G in bit times (R6). -/
def gapBits : Nat := 12

/-- The gap within a frame at which it is truncated, in bit times (R6). -/
def truncationBits : Nat := 11

/-- The bit time of a dominant run at which the line is stuck (R13): the 21st. -/
def stuckBits : Nat := 21

/-- Bit times of recessive that release the line (R14). -/
def releaseBits : Nat := 48

/-- The last tick after SEL rise at which a command is executed (R172). -/
def executionTicks : Nat := 16

/-- The shortest repeat period (R94, R97). -/
def leastPeriod : Nat := 16

/-- The first serial of the reflex space (R145). -/
def firstReflexSerial : Half := 0x8000

/-- The saturation of the receive-error count and of the skipped count of a LATE report (R9, R107). -/
def count16Limit : Nat := 65535

/-- The saturation of the lost count of an OVERFLOW report (R181). -/
def lostLimit : Nat := 255

end Sys2Proof.Config
end

