-- ==== Sys2Proof/Machine/State.lean ====
section
/-! DEFINITION. The state of the station: every piece of state the spec gives the ten blocks, as plain data, and the state
right after hardware reset (R93). One field of `State` per block; the setters `State.with…` are the one way the model
writes a block. -/

namespace Sys2Proof.Machine

/-! ### Membership controller (05) -/

/-- The six station states (R71). -/
inductive StationState where
  | unconfigured | ready | listen | joining | member | stopped
deriving DecidableEq, Repr

/-- The cause of a state change, as a STATE report carries it (R75). -/
inductive Cause where
  | start | stop | founded | adopted | joined | joinFailed | split | duplicate
deriving DecidableEq, Repr

/-- What the membership controller holds (05, head of the chapter; R72). -/
structure Membership where
  state : StationState
  /-- no peer record is SYNCED, as the last evaluation found (R61) -/
  alone : Bool
  /-- cause of the last reported change (R72) -/
  cause : Option Cause
  /-- station number, taken at the first START (R72) -/
  number : Option Station
deriving DecidableEq, Repr

/-! ### Line unit (01) -/

/-- The six states of the receiver (R6). -/
inductive Receiver where
  | off | seek | wait | receive | send | stuck
deriving DecidableEq, Repr

/-- Where the receiver goes when an own frame's transmission ends (R17). -/
inductive AfterSend where
  /-- WAIT after success, RECEIVE after a mismatch (R12) -/
  | inStep
  /-- OFF: the station entered STOPPED while the frame was in SEND -/
  | off
  /-- SEEK: a START was taken in STOPPED while the frame was in SEND -/
  | seek
deriving DecidableEq, Repr

/-- The SOF record of a frame (R8). -/
structure SofRecord where
  localStamp : Time
  /-- present when cluster time was valid at the SOF -/
  clusterStamp : Option Time
deriving DecidableEq, Repr

/-- The partial frame of RECEIVE (R7): the good characters, and the bits of the character in progress, its start bit
first (true: recessive). -/
structure PartialFrame where
  chars : List Byte
  bits : List Bool
  /-- the gap within the frame: bit times of recessive since the stop bit of the last character, while the next start edge is
  awaited (R6) -/
  gap : Nat
deriving DecidableEq, Repr

/-- What the line unit holds (01, head of the chapter). -/
structure LineUnit where
  receiver : Receiver
  sof : Option SofRecord
  frame : Option PartialFrame
  /-- the characters of the own frame in SEND, as they are sent (R11) -/
  sending : List Byte
  afterSend : AfterSend
  /-- run counter for dominant, in bit times, as the last line command left it -/
  dominantRun : Nat
  /-- run counter for recessive, in bit times, as the last line command left it -/
  recessiveRun : Nat
  /-- per-round receive-error count, 0–65535 (R9) -/
  errors : Nat
  muted : Bool
deriving DecidableEq, Repr

/-! ### Actions, frames (01, 06) -/

/-- The kind of an action (R4, R94). -/
inductive ActionKind where
  | set | clear | toggle | pulse
deriving DecidableEq, Repr

/-- Period and count of a repeating action (R94). -/
structure Repeat where
  period : Time
  /-- 0 is unlimited; 1–255 counts the firings left, the next included -/
  count : Byte
deriving DecidableEq, Repr

/-- An action id (00 §5.6). -/
structure ActionId where
  origin : Station
  serial : Half
deriving DecidableEq, Repr

/-- The direction of a qualified edge (R150). -/
inductive EdgeDir where
  | rise | fall
deriving DecidableEq, Repr

/-- The fields of an ACTION, of the frame or of a POST (R4, R175). -/
structure ActionFields where
  selector : Half
  serial : Half
  due : Time
  line : Fin 8
  kind : ActionKind
  notify : Bool
  /-- present when the kind is PULSE -/
  width : Option Half
  /-- present when the repeat flag is set -/
  rep : Option Repeat
deriving DecidableEq, Repr

/-- The kinds of frame (R3). -/
inductive FrameKind where
  | beacon | action | amend | cancel | event | refuse
deriving DecidableEq, Repr

/-- What a BEACON says of its sender, but for the time (R4). -/
structure BeaconBody where
  /-- sender state MEMBER (otherwise JOINING) -/
  member : Bool
  alone : Bool
  count : Byte
  bitmap : Half
deriving DecidableEq, Repr

/-- The payload of a frame in the queue or received, by kind (R4). The sender time of a received BEACON is present; the
one of a queued BEACON is left to the line unit (R11, R18). -/
inductive Payload where
  | beacon (time : Option Time) (body : BeaconBody)
  | action (fields : ActionFields)
  | amend (selector serial : Half) (rep : Repeat)
  | cancel (selector serial : Half)
  | event (selector : Half) (channel : Fin 8) (edge : EdgeDir) (stamp : Time) (sequence : Half)
  /-- the reason is the byte on the line; a receiver does not judge it (R185) -/
  | refuse (origin : Station) (serial : Half) (reason : Byte)
deriving DecidableEq, Repr

/-- A valid received frame (R15). -/
structure Frame where
  sender : Station
  payload : Payload
deriving DecidableEq, Repr

/-! ### Contention unit (02) -/

/-- A record of the transmit queue (R18). Kind and class follow from the payload. -/
structure TxRecord where
  payload : Payload
  /-- attempts that ended in a readback mismatch, 0–7 -/
  attempts : Nat
  selfDelivery : Bool
  reflexEntry : Option (Fin 16)
  inTransmission : Bool
  isVoid : Bool
deriving DecidableEq, Repr

/-- The offered frame: its place in the transmit queue and its contention value (R23, R24). -/
structure Offer where
  place : Nat
  value : Nat
deriving DecidableEq, Repr

/-- What the contention unit holds (02, head of the chapter). -/
structure Contention where
  queue : List TxRecord
  /-- the line unit has signalled idle and not yet the end of idle (R6) -/
  idle : Bool
  /-- the idle slot counter; none: it holds no slot (R22) -/
  slot : Option (Fin 64)
  offered : Option Offer
deriving DecidableEq, Repr

/-! ### Clock unit (03) -/

/-- What the clock unit holds (03, head of the chapter). -/
structure ClockUnit where
  /-- local tick count (R36) -/
  ticks : Time
  /-- cluster clock; present exactly while the validity flag is set (R37) -/
  cluster : Option Time
  /-- slew remainder (R39) -/
  slew : Int
  /-- spacing counter (R40) -/
  spacing : Nat
  /-- listen window count; none: the window does not run (R45) -/
  listen : Option Nat
deriving DecidableEq, Repr

/-! ### Sync unit (04) -/

/-- The state of a peer record (R53). -/
inductive PeerState where
  | absent | heard | synced | lost | self
deriving DecidableEq, Repr

/-- The fields of a peer record that a recorded beacon sets (R52, R55). -/
structure BeaconFields where
  /-- signed 32-bit number of ticks -/
  offset : BitVec 32
  body : BeaconBody
deriving DecidableEq, Repr

/-- A record of the peer table (R52). -/
structure PeerRecord where
  state : PeerState
  fresh : Bool
  /-- 0–15 -/
  missed : Nat
  beacon : Option BeaconFields
deriving DecidableEq, Repr

/-- What the sync unit holds (04, head of the chapter). -/
structure SyncUnit where
  peers : Vector PeerRecord 16
  splitCount : Nat
  joinRounds : Nat
  noFresh : Nat
deriving DecidableEq, Repr

/-! ### Scheduler (06) -/

/-- Where an entry came from (R96). -/
inductive Source where
  | localCommand | selfDelivery | remote | reflex
deriving DecidableEq, Repr

/-- An entry of the action queue (R94). -/
structure Entry where
  id : ActionId
  due : Time
  line : Fin 8
  kind : ActionKind
  width : Option Half
  rep : Option Repeat
  /-- pending period and count of an amendment (R109) -/
  pendingRep : Option Repeat
  notify : Bool
  source : Source
  sequence : BitVec 32
deriving DecidableEq, Repr

/-- What the scheduler holds (06, head of the chapter). -/
structure Scheduler where
  queue : List Entry
  /-- insertion sequence counter (R95) -/
  counter : BitVec 32
deriving DecidableEq, Repr

/-! ### Output unit (07) -/

/-- A pending trailing edge (R119, R122). -/
structure TrailingEdge where
  endTime : Time
  id : ActionId
  /-- its end time was not after the cluster time of its firing (R122) -/
  overdue : Bool
  /-- the last tick reached its end (R125) -/
  reached : Bool
deriving DecidableEq, Repr

/-- The record of an output line (R119). A released line holds no level and no pending trailing edge. -/
inductive OutLine where
  | released
  | driven (high : Bool) (edge : Option TrailingEdge)
deriving DecidableEq, Repr

/-- What the output unit holds: eight line records. -/
structure OutputUnit where
  lines : Vector OutLine 8
deriving DecidableEq, Repr

/-! ### Exchange unit (08) -/

/-- An acceptance window (R133). -/
structure Window where
  value : Half
  mask : Half
  enabled : Bool
deriving DecidableEq, Repr

/-- What the exchange unit holds: six windows from the first START, none before (R148). -/
structure ExchangeUnit where
  windows : List Window
deriving DecidableEq, Repr

/-! ### Capture unit (09) -/

/-- The first-sample record of a run (R149). -/
structure SampleRecord where
  ticks : Time
  cluster : Option Time
deriving DecidableEq, Repr

/-- The qualification state of an input (R149). A run count that has reached the filter length waits for its
EDGE_QUALIFIED. -/
structure InputFilter where
  level : Bool
  run : Nat
  first : Option SampleRecord
deriving DecidableEq, Repr

/-- The channel of a log record (R154). -/
inductive Channel where
  | input (n : Fin 8)
  | soft
deriving DecidableEq, Repr

/-- The edge of a log record (R154). -/
inductive LogEdge where
  | rise | fall | soft
deriving DecidableEq, Repr

/-- The time base of a stamp (R151). -/
inductive TimeBase where
  | clusterTime | localTicks
deriving DecidableEq, Repr

/-- A log record before it is entered: everything but its log sequence (R154). -/
structure LogBody where
  station : Station
  channel : Channel
  edge : LogEdge
  stamp : Time
  base : TimeBase
  synced : Bool
  /-- remote event sequence, of a remote record -/
  remote : Option Half
deriving DecidableEq, Repr

/-- A record of the capture log (R154). -/
structure LogRecord where
  sequence : Half
  body : LogBody
deriving DecidableEq, Repr

/-- What the capture unit holds (09, head of the chapter). -/
structure CaptureUnit where
  /-- none while the filter does not run (R149) -/
  filters : Option (Vector InputFilter 8)
  log : List LogRecord
  /-- overflow-episode flag (R156) -/
  episode : Bool
  /-- log sequence counter (R155) -/
  logCounter : Half
  /-- EVENT sequence counter (R163) -/
  eventCounter : Half
  /-- reflex serial counter (R146) -/
  reflexSerial : Half
deriving DecidableEq, Repr

/-! ### Configuration (10 R178) -/

/-- The line rate in kbit/s (R178). -/
inductive LineRate where
  | kbit125 | kbit250 | kbit500 | kbit1000
deriving DecidableEq, Repr

/-- What becomes of a late action (R100). -/
inductive LatePolicy where
  | fire | drop
deriving DecidableEq, Repr

/-- What becomes of a record that meets a full log (R156). -/
inductive LogPolicy where
  | stop | wrap
deriving DecidableEq, Repr

/-- The mode of an input (R149). -/
inductive InputMode where
  | off | rising | falling | both
deriving DecidableEq, Repr

/-- Mode and filter length of an input (R149). -/
structure InputConfig where
  mode : InputMode
  /-- filter length N, 1–15 -/
  filter : Nat
deriving DecidableEq, Repr

/-- The effect of a reflex entry (R161): PUBLISH, POST, LOCAL. -/
inductive ReflexEffect where
  | publish | post | toSelf
deriving DecidableEq, Repr

/-- An entry of the reflex table (R161). -/
structure ReflexEntry where
  enabled : Bool
  input : Fin 8
  edge : EdgeDir
  effect : ReflexEffect
  selector : Half
  delay : Half
  line : Fin 8
  kind : ActionKind
  width : Half
deriving DecidableEq, Repr

/-- The configuration block of CONFIGURE, decoded (R178, R187). -/
structure ConfigBlock where
  number : Station
  rate : LineRate
  /-- round exponent, 10–20 -/
  k : Nat
  linkDelay : Byte
  syncBound : Byte
  maxStep : Byte
  outlierBound : Half
  listenRounds : Nat
  lostLimit : Nat
  splitLimit : Nat
  latePolicy : LatePolicy
  logPolicy : LogPolicy
  /-- output enable mask, bit n for line n -/
  enableMask : BitVec 8
  /-- default levels, bit n set: high -/
  defaults : BitVec 8
  /-- resync policies, bit n set: DEFAULT, clear: HOLD -/
  resync : BitVec 8
  threshold : Nat
  inputs : Vector InputConfig 8
  /-- windows 2–5 -/
  windows : Vector Window 4
  reflexes : Vector ReflexEntry 16
deriving DecidableEq, Repr

/-! ### Service port (10) -/

/-- The condition of a LINE report (R13, R14). -/
inductive LineCondition where
  | stuck | released
deriving DecidableEq, Repr

/-- The detail that names a frame in TX_ABANDONED and NOT_SENT (R20, R30). -/
inductive FrameDetail where
  | none
  | action (id : ActionId)
  /-- a reflex entry, with the event sequence of an abandoned EVENT -/
  | reflex (entry : Fin 16) (sequence : Option Half)
deriving DecidableEq, Repr

/-- What a FIRED report says of a repeating entry (R105). -/
structure FiredRepeat where
  left : Byte
  ended : Bool
deriving DecidableEq, Repr

/-- The kinds of report with their detail (R180). -/
inductive ReportDetail where
  | state (old new : StationState) (cause : Cause)
  | peer (station : Station) (old new : PeerState) (offset : Option (BitVec 32))
  | alone (value : Bool)
  | late (id : ActionId) (lateness : BitVec 32) (skipped : Nat)
  /-- the reason is LATE, the only one (R101) -/
  | dropped (id : ActionId) (lateness : BitVec 32)
  | fired (id : ActionId) (line : Fin 8) (kind : ActionKind) (due : Time) (rep : Option FiredRepeat)
  | refused (id : ActionId) (station : Station) (reason : Byte)
  | txAbandoned (kind : FrameKind) (detail : FrameDetail)
  | notSent (kind : FrameKind) (detail : FrameDetail)
  | flushed (removed : Nat) (cause : Cause)
  | line (condition : LineCondition)
  | lineErrors (count : Nat)
  | logOverflow (policy : LogPolicy) (discarded : Option Half)
  | overflow (lost : Nat)
deriving DecidableEq, Repr

/-- A report (R180). -/
structure Report where
  detail : ReportDetail
  stamp : Time
  /-- the stamp is a local tick count -/
  unsynced : Bool
deriving DecidableEq, Repr

/-- The response codes (R173, R186). -/
inductive RespCode where
  | ok | busy | badCheck | badCommand | badLength | badState | badParam | queueFull | txFull | notFound | notRepeating
  | badSerial | badLine | late
deriving DecidableEq, Repr

/-- A response, its data as bytes (R168, R186). -/
structure Response where
  command : Byte
  code : RespCode
  data : List Byte
deriving DecidableEq, Repr

/-- A command taken at the end of a transaction, with its parameters (R175–R178, R186). A parameter that the command's own
checks judge at its execution stays a byte. -/
inductive Command where
  | nop
  | status
  | configure (block : List Byte)
  | start
  | stop
  | post (scope : Byte) (fields : ActionFields)
  | amend (scope : Byte) (selector serial : Half) (rep : Repeat)
  | cancel (scope : Byte) (selector serial : Half)
  | find (origin : Byte) (serial : Half)
  | readLog (count : Byte)
  | readReports (count : Byte)
  | readPeers
  | snapshot
  | drive (line kind : Byte)
deriving DecidableEq, Repr

/-- What keeps the service port busy (R171, R172). -/
inductive PortWork where
  | idle
  /-- the current command and the ticks since SEL rise -/
  | current (command : Command) (ticks : Nat)
  /-- a refused envelope, whose response is formed at the next tick -/
  | refused (response : Response)
deriving DecidableEq, Repr

/-- A transaction in progress (R168–R170). -/
structure Transaction where
  /-- it began while the busy flag was set -/
  busy : Bool
  /-- the bytes of the response shifted out on SDO (`Transaction.sdoLevel`) -/
  sdo : List Byte
deriving DecidableEq, Repr

/-- What the service port holds (10, head of the chapter). -/
structure ServicePort where
  transaction : Option Transaction
  /-- the pending response; none once it is handed out (R169) -/
  response : Option Response
  work : PortWork
  /-- the configuration block held, or none (R178) -/
  block : Option ConfigBlock
  reports : List Report
  /-- the ATTN output (R183) -/
  attn : Bool
deriving DecidableEq, Repr

/-! ### The station -/

/-- What an evaluation hands to the membership controller (R66). -/
inductive Verdict where
  | none | split | join | joinFailure
deriving DecidableEq, Repr

/-- A verdict that the membership controller has not yet taken, and the turn of the LINE_ERRORS report of its boundary: at the turn
`last` the line unit takes the boundary after the membership controller (R75). -/
structure HandedVerdict where
  verdict : Verdict
  turn : LineTurn
deriving DecidableEq, Repr

/-- A NOT_SENT report of a PUBLISH or POST reflex, made and not yet queued (R163, R164, R166). -/
structure NotSent where
  kind : FrameKind
  entry : Fin 16
  stamp : Time
  unsynced : Bool
deriving DecidableEq, Repr

/-- An insertion with source REFLEX that an edge has handed to the scheduler and the scheduler has not yet taken (R165); its serial
is taken. With it, the NOT_SENT reports of later entries for the same edge, which stand after its own reports (R166). -/
structure HandedOver where
  action : ActionFields
  behind : List NotSent
deriving DecidableEq, Repr

/-- What the exchange unit has handed on and the receiving block has not yet taken: the claim of a frame on the action queue (R136,
R138, R139), or a REFUSE asked of the contention unit (R137). -/
inductive HandedOn where
  | claim (sender : Station) (payload : Payload)
  | refusal (id : ActionId) (reason : Byte)
deriving DecidableEq, Repr

/-- What this tick owes (the model's own): its round boundary not yet taken, the cluster time it advanced from while the entries
due since then have not yet fired, the verdict of its evaluation, the insertions of reflexes handed to the scheduler and what the
exchange unit has handed on, oldest first. -/
structure Owed where
  boundary : Bool
  fireFrom : Option Time
  verdict : Option HandedVerdict
  insertions : List HandedOver
  exchange : List HandedOn
deriving DecidableEq, Repr

/-- The whole state of the station. -/
structure State where
  member : Membership
  line : LineUnit
  cont : Contention
  clock : ClockUnit
  sync : SyncUnit
  sched : Scheduler
  out : OutputUnit
  exch : ExchangeUnit
  cap : CaptureUnit
  port : ServicePort
  /-- the configuration fields the blocks took at START; none before the first START (R77, R179) -/
  cfg : Option ConfigBlock
  /-- the levels on IN0–IN7, bit n set: high -/
  pins : BitVec 8
  owed : Owed
  /-- the commands that wait, first in, first out -/
  pending : List Instr
deriving DecidableEq, Repr

namespace State

def withMember (s : State) (x : Membership) : State := { s with member := x }
def withLine (s : State) (x : LineUnit) : State := { s with line := x }
def withCont (s : State) (x : Contention) : State := { s with cont := x }
def withClock (s : State) (x : ClockUnit) : State := { s with clock := x }
def withSync (s : State) (x : SyncUnit) : State := { s with sync := x }
def withSched (s : State) (x : Scheduler) : State := { s with sched := x }
def withOut (s : State) (x : OutputUnit) : State := { s with out := x }
def withExch (s : State) (x : ExchangeUnit) : State := { s with exch := x }
def withCap (s : State) (x : CaptureUnit) : State := { s with cap := x }
def withPort (s : State) (x : ServicePort) : State := { s with port := x }
def withCfg (s : State) (x : Option ConfigBlock) : State := { s with cfg := x }
def withPins (s : State) (x : BitVec 8) : State := { s with pins := x }
def withOwed (s : State) (x : Owed) : State := { s with owed := x }
def withPending (s : State) (x : List Instr) : State := { s with pending := x }

end State

/-- A fault: the machine stops. The spec describes no fault of the part, so there is none. -/
inductive Fault where
deriving DecidableEq, Repr

/-- A refusal: the model gives the command no meaning. -/
inductive Refusal where
  /-- raised by an arm of `exec` for a command that has no meaning yet; safe. No arm raises it now. -/
  | notModelled (mnemonic : String)
deriving DecidableEq, Repr

/-- A peer record that holds nothing (R67, R70). -/
def PeerRecord.cleared : PeerRecord := { state := .absent, fresh := false, missed := 0, beacon := none }

/-- The reset response (R169): command code of NOP, OK, no data. -/
def Response.reset : Response := { command := 0, code := .ok, data := [] }

/-- The station right after hardware reset (R93; R17, R35, R51, R67, R72, R117, R132, R148, R167, R184). The pin levels, the
run counters, the end of SEND and what the last tick owes are values the model names (log 1, 8, 15). -/
def State.reset : State where
  member := { state := .unconfigured, alone := true, cause := none, number := none }
  line := { receiver := .off, sof := none, frame := none, sending := [], afterSend := .inStep, dominantRun := 0,
            recessiveRun := 0, errors := 0, muted := false }
  cont := { queue := [], idle := false, slot := none, offered := none }
  clock := { ticks := 0, cluster := none, slew := 0, spacing := 0, listen := none }
  sync := { peers := Vector.replicate 16 PeerRecord.cleared, splitCount := 0, joinRounds := 0, noFresh := 0 }
  sched := { queue := [], counter := 0 }
  out := { lines := Vector.replicate 8 .released }
  exch := { windows := [] }
  cap := { filters := none, log := [], episode := false, logCounter := 0, eventCounter := 0,
           reflexSerial := Config.firstReflexSerial }
  port := { transaction := none, response := some Response.reset, work := .idle, block := none, reports := [], attn := false }
  cfg := none
  pins := 0
  owed := { boundary := false, fireFrom := none, verdict := none, insertions := [], exchange := [] }
  pending := []

end Sys2Proof.Machine
end

