-- ==== Sys2Proof/Machine/Operands.lean ====
section
/-! DEFINITION. Operand forms: the wrap-aware comparison of times (00 §5.4), fields of bytes and byte order (00 §5.1), the
frames of the line (R2–R5, R185) with the receiver's assembly of characters (R1, R7), the command packets (R168, R171,
R186) and the configuration block (R178, R187). -/

namespace Sys2Proof.Machine

/-! ### Times (00 §5.4, R38) -/

/-- `a` is after `b`: (a − b) mod 2³² lies in 1 … 2³¹ − 1. -/
def isAfter (a b : Time) : Bool := a ≠ b && (a - b).toNat < 2 ^ 31

/-- `a` is before `b`: (a − b) mod 2³² lies in 2³¹ … 2³² − 1. -/
def isBefore (a b : Time) : Bool := 2 ^ 31 ≤ (a - b).toNat

/-- The round number of a cluster time: shifted right by k bits (R42). -/
def roundOf (k : Nat) (t : Time) : Time := t >>> k

/-! ### Bytes -/

def byteAt (l : List Byte) (i : Nat) : Byte := l.getD i 0

/-- The 16-bit field at an offset, least significant byte first. -/
def halfAt (l : List Byte) (i : Nat) : Half := byteAt l (i + 1) ++ byteAt l i

/-- The 32-bit field at an offset, least significant byte first. -/
def timeAt (l : List Byte) (i : Nat) : Time := halfAt l (i + 2) ++ halfAt l i

def halfBytes (h : Half) : List Byte := [h.extractLsb' 0 8, h.extractLsb' 8 8]

def timeBytes (t : Time) : List Byte := halfBytes (t.extractLsb' 0 16) ++ halfBytes (t.extractLsb' 16 16)

/-- The number in `n` bits of a byte, from bit `lo` up. -/
def field (b : Byte) (lo n : Nat) : Nat := (b.extractLsb' lo n).toNat

/-- The station number in bits 3–0. -/
def stationIn (b : Byte) : Station := ⟨(b.extractLsb' 0 4).toNat, (b.extractLsb' 0 4).isLt⟩

/-- The line, channel or input in bits 2–0. -/
def eighthIn (b : Byte) : Fin 8 := ⟨(b.extractLsb' 0 3).toNat, (b.extractLsb' 0 3).isLt⟩

/-- A number in the bits of a byte from bit `lo` up. -/
def inBits (lo n : Nat) : Byte := BitVec.ofNat 8 n <<< lo

/-- A flag in bit `n` of a byte. -/
def flagBit (n : Nat) (flag : Bool) : Byte := if flag then inBits n 1 else 0

/-! ### Codes of enumerated fields (R185, R186) -/

def ActionKind.code : ActionKind → Nat
  | .set => 0 | .clear => 1 | .toggle => 2 | .pulse => 3

/-- The kind in bits 4–3 of a control byte. -/
def kindIn (b : Byte) : ActionKind :=
  match field b 3 2 with
  | 0 => .set | 1 => .clear | 2 => .toggle | _ => .pulse

def EdgeDir.code : EdgeDir → Nat
  | .rise => 0 | .fall => 1

/-- The edge in bit 3 of a byte. -/
def edgeIn (b : Byte) : EdgeDir := if b.getLsbD 3 then .fall else .rise

def FrameKind.code : FrameKind → Nat
  | .beacon => 1 | .action => 2 | .amend => 3 | .cancel => 4 | .event => 5 | .refuse => 6

/-- The kind in bits 7–5 of a header; none for the bad kinds 0 and 7 (R3). -/
def frameKindIn (b : Byte) : Option FrameKind :=
  match field b 5 3 with
  | 1 => some .beacon | 2 => some .action | 3 => some .amend | 4 => some .cancel | 5 => some .event | 6 => some .refuse
  | _ => none

/-- The reason codes of a REFUSE (R185). -/
def reasonQueueFull : Byte := 1
def reasonBadLine : Byte := 2
def reasonBadField : Byte := 3
def reasonLate : Byte := 4
def reasonNotRepeating : Byte := 5

/-! ### Frames (R2–R5, R185) -/

/-- The kind of a payload (R4). -/
def Payload.kind : Payload → FrameKind
  | .beacon _ _ => .beacon | .action _ => .action | .amend _ _ _ => .amend | .cancel _ _ => .cancel
  | .event _ _ _ _ _ => .event | .refuse _ _ _ => .refuse

/-- The class in which a kind is offered (R3). -/
def FrameKind.frameClass : FrameKind → Nat
  | .beacon => 0 | .refuse => 1 | .action => 2 | .amend => 2 | .cancel => 2 | .event => 3

/-- The payload lengths a kind allows (R3). -/
def FrameKind.lengths : FrameKind → List Nat
  | .beacon => [8] | .action => [9, 11, 14, 16] | .amend => [9] | .cancel => [4] | .event => [9] | .refuse => [4]

/-- One byte into the CRC-16 of polynomial x¹⁶ + x¹² + x⁵ + 1, most significant bit first (R5). -/
def crcByte (crc : Half) (b : Byte) : Half :=
  (List.range 8).foldl (fun c _ => if c.msb then (c <<< 1) ^^^ 0x1021 else c <<< 1) (crc ^^^ (b.zeroExtend 16 <<< 8))

/-- The frame check over a list of bytes: initial value FFFFh, no final inversion (R5). -/
def crc16 (l : List Byte) : Half := l.foldl crcByte 0xFFFF

/-- The control byte of an ACTION or POST: line, kind, notify, repeat (R185). -/
def controlByte (f : ActionFields) : Byte :=
  inBits 0 f.line ||| inBits 3 f.kind.code ||| flagBit 5 f.notify ||| flagBit 6 f.rep.isSome

/-- Period and count as sent. -/
def repeatBytes (r : Repeat) : List Byte := timeBytes r.period ++ [r.count]

/-- The payload as sent; `time` is the cluster stamp that the line unit places in a BEACON (R4, R11, R185). -/
def payloadBytes (time : Time) : Payload → List Byte
  | .beacon _ b => timeBytes time ++ [flagBit 0 b.member ||| flagBit 1 b.alone, b.count] ++ halfBytes b.bitmap
  | .action f =>
    halfBytes f.selector ++ halfBytes f.serial ++ timeBytes f.due ++ [controlByte f]
      ++ (f.width.map halfBytes).getD [] ++ (f.rep.map repeatBytes).getD []
  | .amend sel ser r => halfBytes sel ++ halfBytes ser ++ repeatBytes r
  | .cancel sel ser => halfBytes sel ++ halfBytes ser
  | .event sel ch e st sq => halfBytes sel ++ [inBits 0 ch ||| inBits 3 e.code] ++ timeBytes st ++ halfBytes sq
  | .refuse o ser reason => [inBits 0 o] ++ halfBytes ser ++ [reason]

/-- The characters of a frame: header with the own number and a spare bit of 0, length, payload, check (R2, R11). -/
def frameBytes (number : Station) (time : Time) (p : Payload) : List Byte :=
  let body := payloadBytes time p
  let checked := [inBits 5 p.kind.code ||| inBits 0 number, BitVec.ofNat 8 body.length] ++ body
  checked ++ halfBytes (crc16 checked)

/-- The ACTION or POST fields of a parameter list whose selector stands at `base`; the optional parts are taken as the
control byte calls for them (R185, R186). -/
def actionFieldsAt (l : List Byte) (base : Nat) : ActionFields :=
  let control := byteAt l (base + 8)
  let kind := kindIn control
  let afterWidth := if kind = .pulse then base + 11 else base + 9
  { selector := halfAt l base, serial := halfAt l (base + 2), due := timeAt l (base + 4), line := eighthIn control,
    kind := kind, notify := control.getLsbD 5,
    width := if kind = .pulse then some (halfAt l (base + 9)) else none,
    rep := if control.getLsbD 6 then some { period := timeAt l afterWidth, count := byteAt l (afterWidth + 4) } else none }

/-- The payload length that a control byte calls for (R3). -/
def actionLength (control : Byte) : Nat :=
  9 + (if kindIn control = .pulse then 2 else 0) + (if control.getLsbD 6 then 5 else 0)

/-- The named fields of a payload whose length suits its kind. Bits that R185 does not name are ignored. None when an
ACTION's length disagrees with its control field: a length error (R3). -/
def payloadOf (kind : FrameKind) (l : List Byte) : Option Payload :=
  match kind with
  | .beacon => some (.beacon (some (timeAt l 0))
      { member := (byteAt l 4).getLsbD 0, alone := (byteAt l 4).getLsbD 1, count := byteAt l 5, bitmap := halfAt l 6 })
  | .action => if l.length = actionLength (byteAt l 8) then some (.action (actionFieldsAt l 0)) else none
  | .amend => some (.amend (halfAt l 0) (halfAt l 2) { period := timeAt l 4, count := byteAt l 8 })
  | .cancel => some (.cancel (halfAt l 0) (halfAt l 2))
  | .event => some (.event (halfAt l 0) (eighthIn (byteAt l 2)) (edgeIn (byteAt l 2)) (timeAt l 3) (halfAt l 7))
  | .refuse => some (.refuse (stationIn (byteAt l 0)) (halfAt l 1) (byteAt l 3))

/-! ### Characters on the line (R1) and the receiver's assembly (R7) -/

/-- The ten bit times of a character: start bit dominant, data bit 0 first, stop bit recessive (true: recessive). -/
def characterBits (b : Byte) : List Bool := [false] ++ (List.range 8).map (fun i => b.getLsbD i) ++ [true]

/-- The bit times of a frame sent back to back (R11). -/
def bitsOfFrame (chars : List Byte) : List Bool := chars.flatMap characterBits

/-- The byte of eight data bits, bit 0 first. -/
def byteOfBits (bits : List Bool) : Byte :=
  (List.range 8).foldl (fun acc i => acc ||| flagBit i (bits.getD i false)) 0

/-- What the receiver makes of a sample. -/
inductive Received where
  /-- the frame is still in assembly -/
  | more (frame : PartialFrame)
  /-- the gap within it reached 11 bit times (R6) -/
  | truncated
  /-- another receive error ended it (R9) -/
  | error
  /-- it passed every check (R7) -/
  | valid (frame : Frame)
deriving DecidableEq, Repr

/-- A receiver that awaits the start edge of its next character. -/
def PartialFrame.awaiting (chars : List Byte) : PartialFrame := { chars := chars, bits := [], gap := 0 }

/-- A receiver that has taken the start bit of the first character of a frame. -/
def PartialFrame.started : PartialFrame := { chars := [], bits := [false], gap := 0 }

/-- The checks made when a good character has arrived, in the order of R7: kind at the header, length at the length
character, check and ACTION control at the second check character. -/
def judgeCharacters (chars : List Byte) : Received :=
  match frameKindIn (byteAt chars 0) with
  | none => .error
  | some kind =>
    let length := (byteAt chars 1).toNat
    if chars.length < 2 then .more (.awaiting chars)
    else if length ∉ kind.lengths then .error
    else if chars.length < length + 4 then .more (.awaiting chars)
    else if crc16 (chars.take (length + 2)) ≠ halfAt chars (length + 2) then .error
    else match payloadOf kind ((chars.drop 2).take length) with
      | none => .error
      | some p => .valid { sender := stationIn (byteAt chars 0), payload := p }

/-- A bit time of recessive between two characters, whether or not a start edge was rejected in it: the receiver goes on
waiting, and the gap that reaches 11 bit times truncates the frame (R1, R6). -/
def PartialFrame.waited (f : PartialFrame) : Received :=
  if f.gap + 1 < Config.truncationBits then .more { f with gap := f.gap + 1 } else .truncated

/-- One sample (true: recessive). Between two characters a recessive one adds to the gap and a dominant one is the start bit of
the next character (R1, R6); the tenth sample of a character is its stop bit, and a dominant one is a framing error (R1). -/
def takeSample (f : PartialFrame) (sample : Bool) : Received :=
  if f.bits = [] then (if sample then f.waited else .more { f with bits := [false], gap := 0 })
  else if f.bits.length < 9 then .more { f with bits := f.bits ++ [sample] }
  else if sample then judgeCharacters (f.chars ++ [byteOfBits (f.bits.drop 1)])
  else .error

/-- Samples one after another; the first error or the completion ends the frame (R7). -/
def takeSamples (f : PartialFrame) : List Bool → Received
  | [] => .more f
  | sample :: rest =>
    match takeSample f sample with
    | .more f' => takeSamples f' rest
    | .truncated => .truncated
    | .error => .error
    | .valid frame => .valid frame

/-- The dominant run after further samples, counted in bit times (R13). -/
def runAfter (run : Nat) (samples : List Bool) : Nat := samples.foldl (fun n recessive => if recessive then 0 else n + 1) run

/-! ### Bits on the service port (R168): each byte most significant bit first, in both directions -/

/-- The levels of a byte on SDI or SDO, in the order of the SCK edges. -/
def serialBits (b : Byte) : List Bool := (List.range 8).map fun i => b.getMsbD i

/-- The byte of the first eight levels. -/
def serialByte (bits : List Bool) : Byte :=
  (List.range 8).foldl (fun acc i => acc ||| flagBit (7 - i) (bits.getD i false)) 0

/-- The received bytes: the whole bytes among the levels sampled on SDI. A byte cut off before its eighth bit is none (R171). -/
def receivedBytes (bits : List Bool) : List Byte := (List.range (bits.length / 8)).map fun n => serialByte (bits.drop (8 * n))

/-- The level on SDO at clock `n` of a transaction, counted from 0: the bytes of the response, and after them 00h for as long as
the host controller goes on clocking (R168). -/
def Transaction.sdoLevel (t : Transaction) (n : Nat) : Bool := (t.sdo.getD (n / 8) 0x00).getMsbD (n % 8)

/-! ### Command packets (R168, R171, R186) -/

def RespCode.code : RespCode → Byte
  | .ok => 0x00 | .busy => 0x01 | .badCheck => 0x02 | .badCommand => 0x03 | .badLength => 0x04 | .badState => 0x05
  | .badParam => 0x06 | .queueFull => 0x07 | .txFull => 0x08 | .notFound => 0x09 | .notRepeating => 0x0A
  | .badSerial => 0x0B | .badLine => 0x0C | .late => 0x0D

/-- The sum of bytes modulo 256 (R168). -/
def byteSum (l : List Byte) : Byte := l.foldl (· + ·) 0

/-- Bytes with the check byte that makes their sum 0 (R168). -/
def withCheck (l : List Byte) : List Byte := l ++ [0 - byteSum l]

/-- The bytes of a response: command code, response code, data length, data, check (R186). -/
def Response.bytes (r : Response) : List Byte := withCheck ([r.command, r.code.code, BitVec.ofNat 8 r.data.length] ++ r.data)

/-- The BUSY response (R170): command code of NOP, BUSY, no data. -/
def Response.busy : Response := { command := 0, code := .busy, data := [] }

/-- The command code of a command (R186). -/
def Command.code : Command → Byte
  | .nop => 0x00 | .status => 0x01 | .configure _ => 0x02 | .start => 0x03 | .stop => 0x04 | .post _ _ => 0x10
  | .amend _ _ _ _ => 0x11 | .cancel _ _ _ => 0x12 | .find _ _ => 0x13 | .readLog _ => 0x20 | .readReports _ => 0x21
  | .readPeers => 0x22 | .snapshot => 0x23 | .drive _ _ => 0x24

/-- The command of a code and its parameters: none for a code of no command (BAD_COMMAND), `some none` for a parameter
length that the command does not take (BAD_LENGTH). POST's length is found from its control byte (R186). -/
def commandOf (code : Byte) (p : List Byte) : Option (Option Command) :=
  let sized (n : Nat) (c : Command) : Option (Option Command) := some (if p.length = n then some c else none)
  match code.toNat with
  | 0x00 => sized 0 .nop
  | 0x01 => sized 0 .status
  | 0x02 => sized 172 (.configure p)
  | 0x03 => sized 0 .start
  | 0x04 => sized 0 .stop
  | 0x10 => if p.length < 10 then some none else sized (actionLength (byteAt p 9) + 1) (.post (byteAt p 0) (actionFieldsAt p 1))
  | 0x11 => sized 10 (.amend (byteAt p 0) (halfAt p 1) (halfAt p 3) { period := timeAt p 5, count := byteAt p 9 })
  | 0x12 => sized 5 (.cancel (byteAt p 0) (halfAt p 1) (halfAt p 3))
  | 0x13 => sized 3 (.find (byteAt p 0) (halfAt p 1))
  | 0x20 => sized 1 (.readLog (byteAt p 0))
  | 0x21 => sized 1 (.readReports (byteAt p 0))
  | 0x22 => sized 0 .readPeers
  | 0x23 => sized 0 .snapshot
  | 0x24 => sized 2 (.drive (byteAt p 0) (byteAt p 1))
  | _ => none

/-- The envelope checks in the order of R171: the command that passes them, or the refusing response. The response carries
the command code as received, or that of NOP when no whole byte was received. -/
def judgeEnvelope (received : List Byte) : Except Response Command :=
  let code := byteAt received 0
  let length := (byteAt received 1).toNat
  let refuse (c : RespCode) : Except Response Command := .error { command := code, code := c, data := [] }
  if received.length < 3 then refuse .badLength
  else if received.length < length + 3 then refuse .badLength
  else if byteSum (received.take (length + 3)) ≠ 0 then refuse .badCheck
  else match commandOf code ((received.drop 2).take length) with
    | none => refuse .badCommand
    | some none => refuse .badLength
    | some (some command) => .ok command

/-! ### The configuration block (R178, R187) -/

def rateOf (b : Byte) : Option LineRate :=
  match b.toNat with
  | 0 => some .kbit125 | 1 => some .kbit250 | 2 => some .kbit500 | 3 => some .kbit1000 | _ => none

/-- Ticks of one bit time (R1). -/
def LineRate.ticksPerBit : LineRate → Nat
  | .kbit125 => 8 | .kbit250 => 4 | .kbit500 => 2 | .kbit1000 => 1

/-- The mode in bits 5–4 of an input byte. -/
def inputModeIn (b : Byte) : InputMode :=
  match field b 4 2 with
  | 0 => .off | 1 => .rising | 2 => .falling | _ => .both

/-- The effect in bits 5–4 of a reflex byte; code 3 names no value. -/
def effectIn (b : Byte) : Option ReflexEffect :=
  match field b 4 2 with
  | 0 => some .publish | 1 => some .post | 2 => some .toSelf | _ => none

/-- Reflex entry n of a block: eight bytes at 44 + 8n. The effect has been judged before (`configOf`). -/
def reflexAt (l : List Byte) (n : Nat) : ReflexEntry :=
  let at' := 44 + 8 * n
  let head := byteAt l at'
  let action := byteAt l (at' + 5)
  { enabled := head.getLsbD 7, input := eighthIn head, edge := edgeIn head, effect := (effectIn head).getD .publish,
    selector := halfAt l (at' + 1), delay := halfAt l (at' + 3), line := eighthIn action, kind := kindIn action,
    width := halfAt l (at' + 6) }

/-- Input n of a block: the byte at 16 + n. -/
def inputAt (l : List Byte) (n : Nat) : InputConfig :=
  { mode := inputModeIn (byteAt l (16 + n)), filter := field (byteAt l (16 + n)) 0 4 }

/-- Window n + 2 of a block: five bytes at 24 + 5n. -/
def windowAt (l : List Byte) (n : Nat) : Window :=
  { value := halfAt l (24 + 5 * n), mask := halfAt l (26 + 5 * n), enabled := (byteAt l (28 + 5 * n)).getLsbD 0 }

/-- The fields of a block by R187, the line rate given. Bits that R187 leaves unnamed are ignored. -/
def blockOf (l : List Byte) (number : Station) (rate : LineRate) : ConfigBlock :=
  { number := number, rate := rate, k := (byteAt l 2).toNat, linkDelay := byteAt l 3, syncBound := byteAt l 4,
    maxStep := byteAt l 5, outlierBound := halfAt l 6, listenRounds := (byteAt l 8).toNat, lostLimit := (byteAt l 9).toNat,
    splitLimit := (byteAt l 10).toNat, latePolicy := if (byteAt l 11).getLsbD 0 then .drop else .fire,
    logPolicy := if (byteAt l 11).getLsbD 1 then .wrap else .stop, enableMask := byteAt l 12, defaults := byteAt l 13,
    resync := byteAt l 14, threshold := (byteAt l 15).toNat, inputs := Vector.ofFn fun i => inputAt l i,
    windows := Vector.ofFn fun i => windowAt l i, reflexes := Vector.ofFn fun i => reflexAt l i }

/-- Every field of a block lies in its range (R178). -/
def ConfigBlock.inRange (c : ConfigBlock) : Bool :=
  10 ≤ c.k && c.k ≤ 20
  && 1 ≤ c.syncBound.toNat && c.syncBound.toNat ≤ c.maxStep.toNat
  && 1 ≤ c.maxStep.toNat
  && 16 ≤ c.outlierBound.toNat && c.syncBound.toNat ≤ c.outlierBound.toNat
  && 2 ≤ c.listenRounds && c.listenRounds ≤ 15
  && 2 ≤ c.lostLimit && c.lostLimit ≤ 15
  && 2 ≤ c.splitLimit && c.splitLimit ≤ 7
  && 1 ≤ c.threshold && c.threshold ≤ 64
  && c.inputs.toList.all (fun i => 1 ≤ i.filter && i.filter ≤ 15)

/-- The block that CONFIGURE's parameters give, or none when a field is out of range or a code names no value (R178). A
disabled reflex entry is judged like an enabled one (R187). -/
def configOf (l : List Byte) : Option ConfigBlock :=
  match rateOf (byteAt l 1) with
  | none => none
  | some rate =>
    if number : (byteAt l 0).toNat < 16 then
      let block := blockOf l ⟨(byteAt l 0).toNat, number⟩ rate
      if block.inRange && (List.range 16).all (fun n => (effectIn (byteAt l (44 + 8 * n))).isSome) then some block else none
    else none

end Sys2Proof.Machine
end

