-- ==== Sys2Proof/Machine/Flags.lean ====
section
/-! DEFINITION. Flags and views computed from the state: the configuration fields the blocks hold, the station number, the
time that the clock unit offers (R37, R44), the busy flag (R172), the alone condition (R61), the ATTN condition (R183),
the acceptance windows' answer (R134). -/

namespace Sys2Proof.Machine

/-- Filler for a reader of configuration fields that are not held. No rule reads a field before the first START; the value
shows only in states that no run reaches (log 13). -/
def ConfigBlock.blank : ConfigBlock where
  number := 0
  rate := .kbit125
  k := 10
  linkDelay := 0
  syncBound := 1
  maxStep := 1
  outlierBound := 16
  listenRounds := 2
  lostLimit := 2
  splitLimit := 2
  latePolicy := .fire
  logPolicy := .stop
  enableMask := 0
  defaults := 0
  resync := 0
  threshold := 1
  inputs := Vector.replicate 8 { mode := .off, filter := 1 }
  windows := Vector.replicate 4 { value := 0, mask := 0, enabled := false }
  reflexes := Vector.replicate 16 { enabled := false, input := 0, edge := .rise, effect := .publish, selector := 0,
                                    delay := 0, line := 0, kind := .set, width := 0 }

namespace State

/-- The configuration fields that the blocks hold (R77). -/
def config (s : State) : ConfigBlock := s.cfg.getD ConfigBlock.blank

/-- The station number (R72). -/
def number (s : State) : Station := s.member.number.getD 0

/-- Cluster time as it is while valid (R37). -/
def now (s : State) : Time := s.clock.cluster.getD 0

/-- Cluster time is valid (R37). -/
def valid (s : State) : Bool := s.clock.cluster.isSome

/-- Cluster time is synced: valid, and the station is MEMBER (R37). -/
def synced (s : State) : Bool := s.valid && s.member.state = .member

/-- The time offered for a stamp: cluster time when valid, otherwise the local tick count (R44, R180). -/
def stampTime (s : State) : Time := s.clock.cluster.getD s.clock.ticks

/-- The unsynced flag that goes with `stampTime` (R180). -/
def unsynced (s : State) : Bool := !s.valid

/-- The spacing unit s = 2^(k−8) (R40). -/
def spacingUnit (s : State) : Nat := 2 ^ (s.config.k - 8)

/-- The listen window W = listen rounds × 2^k + station number × 2^(k−4) (R45). -/
def listenWindow (s : State) : Nat := s.config.listenRounds * 2 ^ s.config.k + s.number.val * 2 ^ (s.config.k - 4)

/-- The round number; 0 when cluster time is not valid (R42, R37). -/
def round (s : State) : Time := if s.valid then roundOf s.config.k s.now else 0

/-- A line is in the output enable mask (R120). Before the first START no mask is held. -/
def enabled (s : State) (line : Fin 8) : Bool := s.config.enableMask.getLsbD line

/-- The default level of a line is high (R119). -/
def defaultHigh (s : State) (line : Fin 8) : Bool := s.config.defaults.getLsbD line

/-- The busy flag (R171, R172): set while a current command is held, and for the tick in which a refused envelope's
response is formed. -/
def busy (s : State) : Bool := s.port.work ≠ .idle

/-- The condition under which ATTN is asserted (R183). -/
def attnDue (s : State) : Bool :=
  s.port.reports ≠ [] || (match s.cfg with
    | none => false
    | some c => c.threshold ≤ s.cap.log.length)

/-- No peer record is in state SYNCED (R61). -/
def noneSynced (s : State) : Bool := s.sync.peers.toList.all fun r => r.state ≠ .synced

end State

/-- A selector matches a window (R134). -/
def Window.passes (w : Window) (selector : Half) : Bool := w.enabled && (selector &&& w.mask = w.value &&& w.mask)

/-- A selector passes the windows: it matches at least one enabled window (R134). -/
def State.passes (s : State) (selector : Half) : Bool := s.exch.windows.any fun w => w.passes selector

/-- The kinds that the contention unit takes in a station state: BEACON in JOINING and MEMBER, the others in MEMBER
(R19). -/
def takesKind (kind : FrameKind) (state : StationState) : Bool :=
  match state with
  | .member => true
  | .joining => kind = .beacon
  | .unconfigured | .ready | .listen | .stopped => false

end Sys2Proof.Machine
end

