-- ==== Sys2Proof/Machine/Layouts.lean ====
section
/-! DEFINITION. The byte layouts of what goes out on the service port: the data of the OK responses (R186) and the log,
report and peer records (R188). That the bits of a response which these tables leave unnamed are sent as 0 is the model's choice
(log 23): the spec says it of frames only (R185). -/

namespace Sys2Proof.Machine

def StationState.code : StationState → Nat
  | .unconfigured => 0 | .ready => 1 | .listen => 2 | .joining => 3 | .member => 4 | .stopped => 5

def Cause.code : Cause → Nat
  | .start => 0 | .stop => 1 | .founded => 2 | .adopted => 3 | .joined => 4 | .joinFailed => 5 | .split => 6 | .duplicate => 7

def PeerState.code : PeerState → Nat
  | .absent => 0 | .heard => 1 | .synced => 2 | .lost => 3 | .self => 4

def Source.code : Source → Nat
  | .localCommand => 0 | .selfDelivery => 1 | .remote => 2 | .reflex => 3

def Channel.code : Channel → Nat
  | .input n => n | .soft => 8

def LogEdge.code : LogEdge → Nat
  | .rise => 0 | .fall => 1 | .soft => 2

def LogPolicy.code : LogPolicy → Nat
  | .stop => 0 | .wrap => 1

def byteOf (n : Nat) : Byte := BitVec.ofNat 8 n

def idBytes (id : ActionId) : List Byte := [byteOf id.origin] ++ halfBytes id.serial

/-- A list of bytes filled with 0 to `n` places. -/
def padTo (n : Nat) (l : List Byte) : List Byte := l ++ List.replicate (n - l.length) 0

/-- The log record of 10 bytes (R188). -/
def LogRecord.bytes (r : LogRecord) : List Byte :=
  halfBytes r.sequence
  ++ [inBits 0 r.body.station ||| flagBit 4 r.body.remote.isSome ||| flagBit 5 (r.body.base = .localTicks)
        ||| flagBit 6 r.body.synced,
      inBits 0 r.body.channel.code ||| inBits 4 r.body.edge.code]
  ++ timeBytes r.body.stamp ++ halfBytes (r.body.remote.getD 0)

/-- The kind code of a report record (R188). -/
def ReportDetail.code : ReportDetail → Nat
  | .state _ _ _ => 0x01 | .peer _ _ _ _ => 0x02 | .alone _ => 0x03 | .late _ _ _ => 0x04 | .dropped _ _ => 0x05
  | .fired _ _ _ _ _ => 0x06 | .refused _ _ _ => 0x07 | .txAbandoned _ _ => 0x08 | .notSent _ _ => 0x09
  | .flushed _ _ => 0x0A | .line _ => 0x0B | .lineErrors _ => 0x0C | .logOverflow _ _ => 0x0D | .overflow _ => 0x0E

/-- The detail of TX_ABANDONED and NOT_SENT: the frame kind code with bit 7 for a reflex entry, then what names the frame
(R188). -/
def frameDetailBytes (kind : FrameKind) : FrameDetail → List Byte
  | .none => [byteOf kind.code]
  | .action id => [byteOf kind.code] ++ idBytes id
  | .reflex entry sequence => [byteOf kind.code ||| flagBit 7 true, byteOf entry] ++ halfBytes (sequence.getD 0)

/-- The detail bytes of a report before padding (R188). R188 gives the detail of ALONE as the new value and no code for it; 01h for
true and 00h for false is the model's choice (log 24). -/
def ReportDetail.bytes : ReportDetail → List Byte
  | .state old new cause => [byteOf old.code, byteOf new.code, byteOf cause.code]
  | .peer st old new offset =>
    [byteOf st, byteOf old.code, byteOf new.code, flagBit 0 offset.isSome] ++ timeBytes (offset.getD 0)
  | .alone v => [flagBit 0 v]
  | .late id lateness skipped => idBytes id ++ timeBytes lateness ++ halfBytes (BitVec.ofNat 16 skipped)
  | .dropped id lateness => idBytes id ++ [reasonLate] ++ timeBytes lateness
  | .fired id out kind due rep =>
    idBytes id
    ++ [inBits 0 out ||| inBits 3 kind.code ||| flagBit 5 rep.isSome ||| flagBit 6 (rep.any (·.ended))]
    ++ timeBytes due ++ [(rep.map (·.left)).getD 0]
  | .refused id st reason => idBytes id ++ [byteOf st, reason]
  | .txAbandoned kind d => frameDetailBytes kind d
  | .notSent kind d => frameDetailBytes kind d
  | .flushed n cause => [byteOf n, byteOf cause.code]
  | .line c => [match c with | .stuck => 0 | .released => 1]
  | .lineErrors n => halfBytes (BitVec.ofNat 16 n)
  | .logOverflow policy discarded => [byteOf policy.code] ++ halfBytes (discarded.getD 0)
  | .overflow lost => [byteOf lost]

/-- The report record of 16 bytes (R188). -/
def Report.bytes (r : Report) : List Byte :=
  padTo 16 ([byteOf r.detail.code, flagBit 0 r.unsynced] ++ timeBytes r.stamp ++ r.detail.bytes)

/-- The peer record of 10 bytes (R188). -/
def PeerRecord.bytes (station : Station) (r : PeerRecord) : List Byte :=
  let head := inBits 0 station ||| inBits 4 r.state.code
  match r.beacon with
  | none => [head, flagBit 0 r.fresh, 0, 0, 0, 0, 0, 0, 0, byteOf r.missed]
  | some b =>
    [head, flagBit 0 r.fresh ||| flagBit 1 true ||| flagBit 2 b.body.member ||| flagBit 3 b.body.alone]
    ++ timeBytes b.offset ++ [b.body.count] ++ halfBytes b.body.bitmap ++ [byteOf r.missed]

/-- The data of STATUS (R174, R186). -/
def statusData (s : State) : List Byte :=
  halfBytes Config.identity
  ++ [match s.member.number with
        | none => flagBit 7 true
        | some n => inBits 0 n,
      byteOf s.member.state.code,
      flagBit 0 s.member.alone ||| flagBit 1 s.line.muted ||| flagBit 2 s.valid]
  ++ timeBytes s.now ++ timeBytes s.round
  ++ [byteOf s.sched.queue.length, byteOf s.cont.queue.length, byteOf s.cap.log.length, byteOf s.port.reports.length]

/-- The control byte of a queued entry, with repeat set for a repeating one (R186). -/
def entryControl (e : Entry) : Byte :=
  inBits 0 e.line ||| inBits 3 e.kind.code ||| flagBit 5 e.notify ||| flagBit 6 e.rep.isSome

/-- A period and count, as 0 when absent (R186). -/
def optionalRepeat (r : Option Repeat) : List Byte := (r.map repeatBytes).getD [0, 0, 0, 0, 0]

/-- The data of FIND for the entry at a position (R118, R186). -/
def findData (position : Nat) (e : Entry) : List Byte :=
  [byteOf position] ++ timeBytes e.due
  ++ [entryControl e, flagBit 0 e.width.isSome ||| flagBit 1 e.rep.isSome ||| flagBit 2 e.pendingRep.isSome,
      byteOf e.source.code]
  ++ halfBytes (e.width.getD 0) ++ optionalRepeat e.rep ++ optionalRepeat e.pendingRep

/-- The data of READ_LOG (R177, R186). -/
def logData (records : List LogRecord) : List Byte := [byteOf records.length] ++ records.flatMap LogRecord.bytes

/-- The data of READ_REPORTS (R177, R186). -/
def reportData (reports : List Report) : List Byte := [byteOf reports.length] ++ reports.flatMap Report.bytes

/-- The data of READ_PEERS: sixteen records, station 0 first (R68, R186). -/
def peersData (peers : Vector PeerRecord 16) : List Byte :=
  (List.finRange 16).flatMap fun i => (peers[i]).bytes i

/-- The data of SNAPSHOT (R159, R186). -/
def snapshotData (sequence : Option Half) : List Byte := [flagBit 0 sequence.isSome] ++ halfBytes (sequence.getD 0)

/-- The line record of 8 bytes in the DRIVE readout (R128, R186). -/
def OutLine.bytes : OutLine → List Byte
  | .released => [0, 0, 0, 0, 0, 0, 0, 0]
  | .driven high none => padTo 8 [flagBit 0 true ||| flagBit 1 high]
  | .driven high (some e) =>
    padTo 8 ([flagBit 0 true ||| flagBit 1 high ||| flagBit 2 true] ++ timeBytes e.endTime ++ idBytes e.id)

/-- The data of DRIVE: eight line records, line 0 first (R128, R186). -/
def driveData (lines : Vector OutLine 8) : List Byte := lines.toList.flatMap OutLine.bytes

end Sys2Proof.Machine
end

