-- ==== Sys2Proof/Machine/Ops.lean ====
section
/-! DEFINITION. The named operations that commands share, by block: the arrival of a report (R181), the entry of a log
record (R155, R156), requests to the contention unit (R19–R21), a firing at an output line (R121, R122), the scheduler's
claims (R95–R112), the state changes of the membership controller with teardown (R73–R91, R116), START (R77, R78). -/

namespace Sys2Proof.Machine

/-! ### Service port: report queue and ATTN (R181, R183) -/

/-- A report arrives at the queue: appended, replaced by an OVERFLOW report, or counted into the OVERFLOW report that is
last (R181). -/
def arrive (queue : List Report) (r : Report) : List Report :=
  match queue.getLast? with
  | some { detail := .overflow lost, stamp := st, unsynced := u } =>
    queue.dropLast ++ [{ detail := .overflow (min (lost + 1) Config.lostLimit), stamp := st, unsynced := u }]
  | _ =>
    if queue.length + 1 < Config.reportPlaces then queue ++ [r]
    else if queue.length < Config.reportPlaces then queue ++ [{ r with detail := .overflow 1 }]
    else queue

namespace State

/-- ATTN follows its condition (R183). -/
def refreshAttn (s : State) : State := s.withPort { s.port with attn := s.attnDue }

/-- A block queues a report with a stamp of its own. -/
def queueReport (s : State) (r : Report) : State :=
  (s.withPort { s.port with reports := arrive s.port.reports r }).refreshAttn

/-- Reports are queued one after another. -/
def queueReports (s : State) (reports : List Report) : State := reports.foldl queueReport s

/-- A report stamped with the time that the clock unit offers (R180). -/
def stamped (s : State) (d : ReportDetail) : Report := { detail := d, stamp := s.stampTime, unsynced := s.unsynced }

/-- A block queues a report stamped with the time that the clock unit offers (R180). -/
def report (s : State) (d : ReportDetail) : State := s.queueReport (s.stamped d)

/-! ### Capture unit: the log (R155, R156) -/

/-- A loss: the first of an overflow episode sets the flag and queues LOG_OVERFLOW (R156). -/
def logLoss (s : State) (discarded : Option Half) : State :=
  if s.cap.episode then s
  else (s.withCap { s.cap with episode := true }).report (.logOverflow s.config.logPolicy discarded)

/-- The record enters the log at its tail with the next log sequence, after `kept` (R155). -/
def appendLog (s : State) (kept : List LogRecord) (body : LogBody) : State :=
  (s.withCap { s.cap with log := kept ++ [{ sequence := s.cap.logCounter, body := body }],
                          logCounter := s.cap.logCounter + 1 }).refreshAttn

/-- A record arrives at the log; the result is the log sequence it took, if it was entered (R155, R156). -/
def enterLog (s : State) (body : LogBody) : State × Option Half :=
  if s.cap.log.length < Config.logPlaces then (s.appendLog s.cap.log body, some s.cap.logCounter)
  else match s.config.logPolicy with
    | .stop => (s.logLoss none, none)
    | .wrap =>
      ((s.appendLog s.cap.log.tail body).logLoss (s.cap.log.head?.map (·.sequence)), some s.cap.logCounter)

end State

/-! ### Contention unit: requests (R19–R21) -/

/-- A new record of the transmit queue (R19). -/
def TxRecord.fresh (p : Payload) (selfDelivery : Bool) (reflexEntry : Option (Fin 16)) : TxRecord :=
  { payload := p, attempts := 0, selfDelivery := selfDelivery, reflexEntry := reflexEntry, inTransmission := false,
    isVoid := false }

def TxRecord.kind (r : TxRecord) : FrameKind := r.payload.kind

/-- The answer to an enqueue request. -/
inductive Enqueued where
  | appended | full | discarded
deriving DecidableEq, Repr

namespace State

/-- A request of a kind other than BEACON: discarded outside MEMBER, refused when 8 records are held, otherwise appended
(R19, R20). -/
def enqueue (s : State) (r : TxRecord) : State × Enqueued :=
  if !takesKind r.kind s.member.state then (s, .discarded)
  else if s.cont.queue.length < Config.transmitPlaces then
    (s.withCont { s.cont with queue := s.cont.queue ++ [r] }, .appended)
  else (s, .full)

/-- The transmit queue after a BEACON request taken in JOINING or MEMBER (R21). -/
def beaconQueue (queue : List TxRecord) (body : BeaconBody) : List TxRecord :=
  let r := TxRecord.fresh (.beacon none body) false none
  if queue.any (fun x => x.kind = .beacon && x.inTransmission) then queue
  else if queue.any (fun x => x.kind = .beacon) then queue.map (fun x => if x.kind = .beacon then r else x)
  else if queue.length < Config.transmitPlaces then queue ++ [r]
  else queue

/-- The sync unit asks for this station's BEACON (R21; discarded outside JOINING and MEMBER, R19). -/
def requestBeacon (s : State) (body : BeaconBody) : State :=
  if takesKind .beacon s.member.state then s.withCont { s.cont with queue := beaconQueue s.cont.queue body } else s

/-- A REFUSE is asked for; a full queue makes NOT_SENT with the refused action's id (R20, R137). -/
def refuse (s : State) (id : ActionId) (reason : Byte) : State :=
  match s.enqueue (.fresh (.refuse id.origin id.serial reason) false none) with
  | (s', .full) => s'.report (.notSent .refuse (.action id))
  | (s', _) => s'

end State

/-! ### Output unit: a firing (R121, R122) -/

/-- The line record after a firing. A released line is not driven by one. -/
def OutLine.fired (line : OutLine) (defaultHigh : Bool) (now : Time) (kind : ActionKind) (width : Half) (id : ActionId)
    (due : Time) : OutLine :=
  match line with
  | .released => .released
  | .driven high _ =>
    match kind with
    | .set => .driven true none
    | .clear => .driven false none
    | .toggle => .driven (!high) none
    | .pulse =>
      let endTime := due + width.zeroExtend 32
      .driven (!defaultHigh) (some { endTime := endTime, id := id, overdue := !isAfter endTime now, reached := false })

/-- The eight records after a change of each by its number. -/
def mapLines (f : Fin 8 → OutLine → OutLine) (lines : Vector OutLine 8) : Vector OutLine 8 := Vector.ofFn fun i => f i lines[i]

/-- A firing reaches the output unit (R121). -/
def State.applyFiring (s : State) (line : Fin 8) (kind : ActionKind) (width : Half) (id : ActionId) (due : Time) : State :=
  s.withOut { lines := s.out.lines.set line ((s.out.lines[line]).fired (s.defaultHigh line) s.now kind width id due) }

/-! ### Scheduler (06) -/

/-- The distance of a due time counted forward from `base` (R95). -/
def dueKey (base due : Time) : Nat := (due - base).toNat

/-- An entry is placed behind every entry of the same due time and ahead of every entry with a later one (R95). -/
def placeIn (base : Time) (e : Entry) : List Entry → List Entry
  | [] => [e]
  | x :: rest => if dueKey base x.due ≤ dueKey base e.due then x :: placeIn base e rest else e :: x :: rest

namespace State

/-- The time that due times are counted from. While the firing of a tick is still to be taken, the entries it will fire are
not yet behind; they are counted from the time before the advance. -/
def orderBase (s : State) : Time := s.owed.fireFrom.getD s.now

/-- The insertion sequence counter moves at a placement (R95). -/
def bumpSequence (s : State) : State := s.withSched { s.sched with counter := s.sched.counter + 1 }

/-- A placement with a fresh insertion sequence (R95). -/
def placeEntry (s : State) (e : Entry) : State :=
  let counter := s.sched.counter + 1
  s.withSched { queue := placeIn s.orderBase { e with sequence := counter } s.sched.queue, counter := counter }

end State

/-- Skips of missed occurrences (R107): from a next due time and a count left, the due time and count that remain, or none
when a skip was the last, and the number skipped. The number of skips is the least that brings the due time to now or
past it. -/
def skipMissed (next now : Time) (period : Time) (count : Byte) : Option (Time × Byte) × Nat :=
  let lateness := if isBefore next now then (now - next).toNat else 0
  let skips := (lateness + (period.toNat - 1)) / period.toNat
  if count = 0 then (some (next + period * BitVec.ofNat 32 skips, 0), skips)
  else if skips < count.toNat then (some (next + period * BitVec.ofNat 32 skips, count - BitVec.ofNat 8 skips), skips)
  else (none, count.toNat)

/-- An entry is stepped after its firing (R106, R107): what remains of it, the occurrences skipped, and what FIRED says of
it. -/
def stepEntry (e : Entry) (now : Time) : Option Entry × Nat × Option FiredRepeat :=
  match e.rep with
  | none => (none, 0, none)
  | some held =>
    let r := e.pendingRep.getD held
    if r.count = 1 then (none, 0, some { left := 0, ended := true })
    else
      match skipMissed (e.due + r.period) now r.period (if r.count = 0 then 0 else r.count - 1) with
      | (some (due, left), skipped) =>
        (some { e with due := due, rep := some { r with count := left }, pendingRep := none }, skipped,
          some { left := left, ended := false })
      | (none, skipped) => (none, skipped, some { left := 0, ended := true })

namespace State

/-- One firing (R102, R105): LATE first when it is late, the hand-off to the output unit, FIRED when notify is set. What
remains of the entry is handed back. -/
def fireOnce (s : State) (e : Entry) (lateness : Option (BitVec 32)) : State × Option Entry :=
  let (rest, skipped, fired) := stepEntry e s.now
  let s1 := match lateness with
    | none => s
    | some l => s.report (.late e.id l (min skipped Config.count16Limit))
  let s2 := s1.applyFiring e.line e.kind (e.width.getD 0) e.id e.due
  (if e.notify then s2.report (.fired e.id e.line e.kind e.due fired) else s2, rest)

/-- What remains after a firing is re-inserted (R108). -/
def reinsert (s : State) (rest : Option Entry) : State :=
  match rest with
  | none => s
  | some e => s.placeEntry e

/-- A firing with what follows it (R105–R108). A re-inserted entry that is due now fires at once, and its next due time is
at least one period after now. -/
def fire (s : State) (e : Entry) (lateness : Option (BitVec 32)) : State :=
  match s.fireOnce e lateness with
  | (s1, none) => s1
  | (s1, some e1) =>
    if e1.due = s1.now then
      let s2 := s1.bumpSequence
      let (s3, rest) := s2.fireOnce { e1 with sequence := s2.sched.counter } none
      s3.reinsert rest
    else s1.placeEntry e1

end State

/-- The result of an insertion (R103). -/
inductive InsertResult where
  | inserted | badLine | badField | queueFull | late | notMember
deriving DecidableEq, Repr

/-- A period lies in 16 … 2³¹ − 1 (R97, R109). -/
def periodOk (p : Time) : Bool := Config.leastPeriod ≤ p.toNat && p.toNat < 2 ^ 31

/-- The field check of an insertion (R97). -/
def fieldsOk (e : Entry) : Bool :=
  (match e.rep with
    | none => true
    | some r => periodOk r.period)
  && (e.kind ≠ .pulse || e.width.getD 0 ≠ 0)

namespace State

/-- The lateness check and what it decides (R100–R102). -/
def insertByDue (s : State) (e : Entry) : State × InsertResult :=
  if isAfter e.due s.now then (s.placeEntry e, .inserted)
  else if e.due = s.now then (s.fire e none, .inserted)
  else match s.config.latePolicy with
    | .drop => (s.report (.dropped e.id (s.now - e.due)), .late)
    | .fire => (s.fire e (some (s.now - e.due)), .inserted)

/-- An insertion, its checks in the order of R97–R102. -/
def insert (s : State) (e : Entry) : State × InsertResult :=
  if s.member.state ≠ .member then (s, .notMember)
  else if !s.enabled e.line then (s, .badLine)
  else if !fieldsOk e then (s, .badField)
  else if s.sched.queue.any (fun x => x.id = e.id) then
    (s.withSched { s.sched with queue := s.sched.queue.filter (fun x => x.id ≠ e.id) }).insertByDue e
  else if Config.actionPlaces ≤ s.sched.queue.length then (s, .queueFull)
  else s.insertByDue e

end State

/-- The result of an amendment (R109). -/
inductive AmendResult where
  | applied | notFound | notRepeating | badField | notMember
deriving DecidableEq, Repr

/-- The result of a cancellation (R112). -/
inductive CancelResult where
  | removed | notFound | notMember
deriving DecidableEq, Repr

namespace State

/-- An amendment (R109). -/
def amendEntry (s : State) (id : ActionId) (new : Repeat) : State × AmendResult :=
  if s.member.state ≠ .member then (s, .notMember)
  else match s.sched.queue.find? (fun x => x.id = id) with
    | none => (s, .notFound)
    | some e =>
      if e.rep.isNone then (s, .notRepeating)
      else if !periodOk new.period then (s, .badField)
      else
        (s.withSched { s.sched with
          queue := s.sched.queue.map (fun x => if x.id = id then { x with pendingRep := some new } else x) }, .applied)

/-- A cancellation (R112). -/
def cancelEntry (s : State) (id : ActionId) : State × CancelResult :=
  if s.member.state ≠ .member then (s, .notMember)
  else if s.sched.queue.any (fun x => x.id = id) then
    (s.withSched { s.sched with queue := s.sched.queue.filter (fun x => x.id ≠ id) }, .removed)
  else (s, .notFound)

/-- The flush of the action queue at teardown, with one FLUSHED report when it held an entry (R116). -/
def flush (s : State) (cause : Cause) : State :=
  let removed := s.sched.queue.length
  let s' := s.withSched { s.sched with queue := [] }
  if removed = 0 then s' else s'.report (.flushed removed cause)

end State

/-! ### State changes (05) -/

/-- The line unit when the station leaves JOINING or MEMBER for LISTEN (R17). -/
def LineUnit.left (l : LineUnit) : LineUnit := { l with errors := 0 }

/-- The line unit when the station enters STOPPED: a frame in SEND completes, anything else ends (R17). -/
def LineUnit.stopped (l : LineUnit) : LineUnit :=
  if l.receiver = .send then { l with errors := 0, muted := false, afterSend := .off }
  else { receiver := .off, sof := none, frame := none, sending := [], afterSend := .inStep, dominantRun := 0,
         recessiveRun := 0, errors := 0, muted := false }

/-- The line unit at START (R6, R17). -/
def LineUnit.started (l : LineUnit) : LineUnit :=
  if l.receiver = .send then { l with errors := 0, muted := false, afterSend := .seek }
  else { receiver := .seek, sof := none, frame := none, sending := [], afterSend := .inStep, dominantRun := 0,
         recessiveRun := 0, errors := 0, muted := false }

/-- The purge of the transmit queue: only a record in transmission stays, void (R33). -/
def Contention.purged (c : Contention) : Contention :=
  { c with queue := (c.queue.filter (·.inTransmission)).map (fun r => { r with isVoid := true }), offered := none }

/-- The contention unit when the receiver is OFF or starts anew: no slot, no offered frame (R35). -/
def Contention.silent (c : Contention) : Contention := { c with idle := false, slot := none, offered := none }

/-- The clock unit at a teardown; the listen window starts at 0 into LISTEN (R50). -/
def ClockUnit.left (c : ClockUnit) (intoListen : Bool) : ClockUnit :=
  { c with cluster := none, slew := 0, spacing := 0, listen := if intoListen then some 0 else none }

/-- A peer record at a teardown: SELF stays, the others become ABSENT (R70). -/
def PeerRecord.tornDown (r : PeerRecord) : PeerRecord := if r.state = .self then r else .cleared

/-- The sync unit at a teardown (R70). -/
def SyncUnit.left (y : SyncUnit) : SyncUnit :=
  { peers := Vector.ofFn fun i => (y.peers[i]).tornDown, splitCount := 0, joinRounds := 0, noFresh := 0 }

/-- The peer table at START: the own record SELF, the others ABSENT (R67). -/
def SyncUnit.started (number : Station) : SyncUnit :=
  { peers := Vector.ofFn fun i => if i = number then { PeerRecord.cleared with state := .self } else .cleared,
    splitCount := 0, joinRounds := 0, noFresh := 0 }

/-- Stage 1 of a teardown into LISTEN: a pending trailing edge completes at once (R130). -/
def OutLine.completed (line : OutLine) (defaultHigh : Bool) : OutLine :=
  match line with
  | .released => .released
  | .driven high none => .driven high none
  | .driven _ (some _) => .driven defaultHigh none

/-- Entry into STOPPED, and stage 2 under the policy DEFAULT: the default level, no edge (R130, R131). -/
def OutLine.defaulted (line : OutLine) (defaultHigh : Bool) : OutLine :=
  match line with
  | .released => .released
  | .driven _ _ => .driven defaultHigh none

/-- Both stages of a teardown into LISTEN (R130). -/
def OutLine.resynced (line : OutLine) (defaultHigh toDefault : Bool) : OutLine :=
  if toDefault then (line.completed defaultHigh).defaulted defaultHigh else line.completed defaultHigh

/-- A NOT_SENT report that has waited (R163, R164). -/
def NotSent.report (r : NotSent) : Report :=
  { detail := .notSent r.kind (.reflex r.entry none), stamp := r.stamp, unsynced := r.unsynced }

/-- The baseline of the inputs: the pin levels, no run, no edge (R152). -/
def baseline (pins : BitVec 8) : Vector InputFilter 8 := Vector.ofFn fun i => { level := pins.getLsbD i, run := 0, first := none }

namespace State

/-- The change of the station state with its cause and STATE report. The clock unit has already taken its part of the
change, so the report is stamped with the time offered after it (R72, R75). -/
def changeState (s : State) (new : StationState) (cause : Cause) : State :=
  (s.withMember { s.member with state := new, cause := some cause }).report (.state s.member.state new cause)

/-- Every enabled line goes to its default level and no edge is left (R131). -/
def defaultLines (s : State) : State :=
  s.withOut { lines := mapLines (fun i l => l.defaulted (s.defaultHigh i)) s.out.lines }

/-- The output lines at a teardown into LISTEN (R130). -/
def resyncLines (s : State) : State :=
  s.withOut { lines := mapLines (fun i l => l.resynced (s.defaultHigh i) (s.config.resync.getLsbD i)) s.out.lines }

/-- The reports that wait behind insertions handed over (R166). -/
def waitingReports (s : State) : List Report := s.owed.insertions.flatMap (·.behind.map NotSent.report)

/-- The LINE_ERRORS report of a boundary that the line unit has put off until after the membership controller (log 7), when another
departure comes first: the boundary has been taken, so it occurs in full and the teardown follows (R43). -/
def putOffErrors (s : State) : List Report :=
  match s.owed.verdict with
  | some { turn := .last, .. } =>
    if 0 < s.line.errors then [{ detail := .lineErrors s.line.errors, stamp := s.now, unsynced := false }] else []
  | some { turn := .first, .. } | some { turn := .middle, .. } | none => []

/-- What waits is queued as the station leaves JOINING or MEMBER: the LINE_ERRORS report put off (R43), and the reports behind
insertions, none of which makes a report any more, since each is answered NOT MEMBER (R165, R166, log 17). -/
def tellWaiting (s : State) : State :=
  (s.withOwed { s.owed with insertions := s.owed.insertions.map fun h => { h with behind := [] } }).queueReports
    (s.putOffErrors ++ s.waitingReports)

/-- No boundary and no firing is owed any more (R43, R104: after a teardown the boundary does not occur and nothing fires). What has
been handed over stays: the membership controller finds a verdict void (R73), the scheduler answers an insertion or a claim NOT MEMBER
(R165, R136), and the contention unit discards a REFUSE (R19). -/
def owesNoEvent (s : State) : State := s.withOwed { s.owed with boundary := false, fireFrom := none }

/-- The blocks at a teardown into LISTEN (R91). -/
def leaveForListen (s : State) (cause : Cause) : State :=
  let s1 := (s.withClock (s.clock.left true)).withMember { s.member with alone := true }
  let s2 := s1.changeState .listen cause
  let s3 := ((s2.withLine s2.line.left).withCont s2.cont.purged).withSync s2.sync.left
  let s4 := s3.resyncLines.withCap { s3.cap with filters := some (baseline s3.pins) }
  s4.owesNoEvent.flush cause

/-- Teardown into LISTEN, on a join failure or a split: what waits is reported first. -/
def teardownToListen (s : State) (cause : Cause) : State := s.tellWaiting.leaveForListen cause

/-- The blocks at a teardown into STOPPED (R91). -/
def leaveForStopped (s : State) (cause : Cause) : State :=
  let s1 := (s.withClock (s.clock.left false)).withMember { s.member with alone := true }
  let s2 := s1.changeState .stopped cause
  let s3 := ((s2.withLine s2.line.stopped).withCont s2.cont.purged.silent).withSync s2.sync.left
  let s4 := s3.defaultLines.withCap { s3.cap with filters := none }
  s4.owesNoEvent.flush cause

/-- Teardown into STOPPED, on STOP or a duplicate number in JOINING or MEMBER: what waits is reported first. -/
def teardownToStopped (s : State) (cause : Cause) : State := s.tellWaiting.leaveForStopped cause

/-- STOP or a duplicate number taken in LISTEN: STOPPED without teardown (R88, R89). -/
def stopListening (s : State) (cause : Cause) : State :=
  let s1 := (s.withClock { s.clock with listen := none }).changeState .stopped cause
  let s2 := (s1.withLine s1.line.stopped).withCont s1.cont.silent
  (s2.defaultLines.withCap { s2.cap with filters := none }).owesNoEvent

/-- The station enters STOPPED with a cause, from the states that take the request; void elsewhere (R73, R88–R90). -/
def enterStopped (s : State) (cause : Cause) : State :=
  match s.member.state with
  | .listen => s.stopListening cause
  | .joining | .member => s.teardownToStopped cause
  | .unconfigured | .ready | .stopped => s

end State

/-- The six acceptance windows, formed at START (R133). -/
def windowsOf (c : ConfigBlock) : List Window :=
  [{ value := 0xFF00 + BitVec.ofNat 16 c.number, mask := 0xFFFF, enabled := true },
   { value := 0xFFFF, mask := 0xFFFF, enabled := true }] ++ c.windows.toList

namespace State

/-- The entry into LISTEN at a START, what both STARTs share (R77, R78). -/
def enterListen (s : State) : State :=
  let s1 := s.withClock { s.clock with cluster := none, slew := 0, spacing := 0, listen := some 0 }
  let s2 := (s1.withLine s1.line.started).withCont s1.cont.silent
  let s3 := s2.withSync (SyncUnit.started s2.number)
  let s4 := (s3.withCap { s3.cap with filters := some (baseline s3.pins) }).owesNoEvent
  (s4.withMember { s4.member with alone := true }).changeState .listen .start

/-- START in READY: the blocks take their fields of the held block, and the enabled lines are driven at their default
levels (R77, R129, R133). -/
def startFromReady (s : State) (c : ConfigBlock) : State :=
  let s1 := (s.withCfg (some c)).withMember { s.member with number := some c.number }
  let s2 := s1.withExch { windows := windowsOf c }
  let s3 := s2.withOut { lines := Vector.ofFn fun i =>
    if c.enableMask.getLsbD i then .driven (c.defaults.getLsbD i) none else .released }
  s3.enterListen

end State

/-! ### Exchange unit: what a frame does to the action queue (R136, R138, R139, R143) -/

/-- The reason that answers an insertion's result, if it is a refusal (R103). -/
def InsertResult.reason : InsertResult → Option Byte
  | .inserted => none | .badLine => some reasonBadLine | .badField => some reasonBadField
  | .queueFull => some reasonQueueFull | .late => some reasonLate | .notMember => none

/-- The reason that answers an amendment's result, if it is a refusal (R110). -/
def AmendResult.reason : AmendResult → Option Byte
  | .applied => none | .notFound => none | .notRepeating => some reasonNotRepeating | .badField => some reasonBadField
  | .notMember => none

/-- The action that an ACTION's fields name, of an origin and from a source, as a new entry (R100, R136). -/
def ActionFields.entry (f : ActionFields) (origin : Station) (source : Source) : Entry :=
  { id := { origin := origin, serial := f.serial }, due := f.due, line := f.line, kind := f.kind, width := f.width,
    rep := f.rep, pendingRep := none, notify := f.notify, source := source, sequence := 0 }

/-- The selector of a frame passes the windows (R134); the kinds that the exchange unit does not apply have none here. -/
def State.admits (s : State) (p : Payload) : Bool :=
  match p with
  | .action f => s.passes f.selector
  | .amend selector _ _ | .cancel selector _ => s.passes selector
  | .beacon _ _ | .event _ _ _ _ _ | .refuse _ _ _ => false

/-- The claim of an ACTION, AMEND or CANCEL on the action queue; the result is the id and the reason of a refusal. -/
def State.applyClaim (s : State) (origin : Station) (source : Source) (p : Payload) : State × Option (ActionId × Byte) :=
  match p with
  | .action f =>
    let (s', result) := s.insert (f.entry origin source)
    (s', result.reason.map fun reason => ({ origin := origin, serial := f.serial }, reason))
  | .amend _ serial new =>
    let (s', result) := s.amendEntry { origin := origin, serial := serial } new
    (s', result.reason.map fun reason => ({ origin := origin, serial := serial }, reason))
  | .cancel _ serial => ((s.cancelEntry { origin := origin, serial := serial }).1, none)
  | .beacon _ _ | .event _ _ _ _ _ | .refuse _ _ _ => (s, none)

end Sys2Proof.Machine
end

