-- ==== Sys2Proof/Machine/Commands.lean ====
section
/-! DEFINITION. The host commands (R172–R179): each is the execution of the current command as one event, with the state
check first, then the command's own checks, and its response made the pending response. -/

namespace Sys2Proof.Machine

/-- The states in which a command is allowed (R173). -/
def Command.allowedIn (c : Command) (state : StationState) : Bool :=
  match c with
  | .nop | .status | .find _ _ | .readLog _ | .readReports _ | .readPeers => true
  | .configure _ => state = .unconfigured || state = .ready
  | .start => state = .ready || state = .stopped
  | .stop => state = .listen || state = .joining || state = .member
  | .post _ _ | .amend _ _ _ _ | .cancel _ _ _ => state = .member
  | .snapshot | .drive _ _ => state = .listen || state = .joining || state = .member || state = .stopped

namespace State

/-- The current command when its execution may come: one to sixteen ticks after SEL rise (R172). That it comes in the first tick only
after the TICK, and so after that tick's advance of cluster time, is the model's choice (log 5). -/
def ready (s : State) : Option Command :=
  match s.port.work with
  | .current c ticks => if 1 ≤ ticks && ticks ≤ Config.executionTicks then some c else none
  | .idle | .refused _ => none

/-- The end of an execution: the response becomes pending and the busy flag is cleared (R172). -/
def respond (s : State) (r : Response) : State := s.withPort { s.port with response := some r, work := .idle }

/-- The response of a command, with data. -/
def answer (s : State) (c : Command) (code : RespCode) (data : List Byte) : State :=
  s.respond { command := c.code, code := code, data := data }

/-- A command's own part after the state check; in a state that does not allow it the answer is BAD_STATE and nothing
changes (R172, R173). -/
def guarded (s : State) (c : Command) (own : State → State) : State :=
  if c.allowedIn s.member.state then own s else s.answer c .badState []

/-! ### The commands' own parts -/

def runNop (s : State) : State := s.guarded .nop fun s => s.answer .nop .ok []

def runStatus (s : State) : State := s.guarded .status fun s => s.answer .status .ok (statusData s)

/-- CONFIGURE (R76, R178). -/
def runConfigure (s : State) (block : List Byte) : State :=
  s.guarded (.configure block) fun s =>
    match configOf block with
    | none => s.answer (.configure block) .badParam []
    | some c =>
      ((s.withPort { s.port with block := some c }).withMember { s.member with state := .ready }).answer
        (.configure block) .ok []

/-- START (R77, R78, R179). READY always holds a block (R76). -/
def runStart (s : State) : State :=
  s.guarded .start fun s =>
    (match s.member.state, s.port.block with
      | .ready, some c => s.startFromReady c
      | _, _ => s.enterListen).answer .start .ok []

/-- STOP (R89, R90). -/
def runStop (s : State) : State := s.guarded .stop fun s => (s.enterStopped .stop).answer .stop .ok []

/-- The response code of a local insertion (R103). -/
def insertCode : InsertResult → RespCode
  | .inserted => .ok | .badLine => .badLine | .badField => .badParam | .queueFull => .queueFull | .late => .late
  | .notMember => .badState

/-- The response code of a local amendment (R110). -/
def amendCode : AmendResult → RespCode
  | .applied => .ok | .notFound => .notFound | .notRepeating => .notRepeating | .badField => .badParam | .notMember => .badState

/-- The response code of a local cancellation (R112). -/
def cancelCode : CancelResult → RespCode
  | .removed => .ok | .notFound => .notFound | .notMember => .badState

/-- The response code of a cluster-scope request (R142, R175). -/
def enqueueCode : Enqueued → RespCode
  | .appended => .ok | .full => .txFull | .discarded => .badState

/-- The frame of a cluster-scope command is asked for with its self-delivery flag set (R142, R175). -/
def sendCommand (s : State) (c : Command) (p : Payload) : State :=
  let (s', result) := s.enqueue (.fresh p true none)
  s'.answer c (enqueueCode result) []

/-- POST (R141, R142, R145, R175). -/
def runPost (s : State) (scope : Byte) (f : ActionFields) : State :=
  let c := Command.post scope f
  s.guarded c fun s =>
    if 1 < scope.toNat then s.answer c .badParam []
    else if Config.firstReflexSerial.toNat ≤ f.serial.toNat then s.answer c .badSerial []
    else if scope = 0 then
      let (s', result) := s.insert (f.entry s.number .localCommand)
      s'.answer c (insertCode result) []
    else s.sendCommand c (.action f)

/-- AMEND (R141, R142, R175). -/
def runAmend (s : State) (scope : Byte) (selector serial : Half) (new : Repeat) : State :=
  let c := Command.amend scope selector serial new
  s.guarded c fun s =>
    if 1 < scope.toNat then s.answer c .badParam []
    else if scope = 0 then
      let (s', result) := s.amendEntry { origin := s.number, serial := serial } new
      s'.answer c (amendCode result) []
    else s.sendCommand c (.amend selector serial new)

/-- CANCEL (R141, R142, R175). -/
def runCancel (s : State) (scope : Byte) (selector serial : Half) : State :=
  let c := Command.cancel scope selector serial
  s.guarded c fun s =>
    if 1 < scope.toNat then s.answer c .badParam []
    else if scope = 0 then
      let (s', result) := s.cancelEntry { origin := s.number, serial := serial }
      s'.answer c (cancelCode result) []
    else s.sendCommand c (.cancel selector serial)

/-- FIND (R118, R176): the position is counted from 1 at the front of the queue. -/
def runFind (s : State) (origin : Byte) (serial : Half) : State :=
  let c := Command.find origin serial
  s.guarded c fun s =>
    if 16 ≤ origin.toNat then s.answer c .badParam []
    else
      let named := fun (x : Entry) => decide (x.id = { origin := stationIn origin, serial := serial })
      match s.sched.queue.find? named with
      | none => s.answer c .notFound []
      | some e => s.answer c .ok (findData (s.sched.queue.findIdx named + 1) e)

/-- A count of READ_LOG or READ_REPORTS lies in 1–8 (R177). -/
def countOk (count : Byte) : Bool := 1 ≤ count.toNat && count.toNat ≤ 8

/-- READ_LOG (R157, R177): a reading that removes a record ends the overflow episode. -/
def runReadLog (s : State) (count : Byte) : State :=
  let c := Command.readLog count
  s.guarded c fun s =>
    if !countOk count then s.answer c .badParam []
    else
      let removed := s.cap.log.take count.toNat
      let s' := (s.withCap { s.cap with
        log := s.cap.log.drop count.toNat, episode := s.cap.episode && removed.isEmpty }).refreshAttn
      s'.answer c .ok (logData removed)

/-- READ_REPORTS (R177, R182). -/
def runReadReports (s : State) (count : Byte) : State :=
  let c := Command.readReports count
  s.guarded c fun s =>
    if !countOk count then s.answer c .badParam []
    else
      let s' := (s.withPort { s.port with reports := s.port.reports.drop count.toNat }).refreshAttn
      s'.answer c .ok (reportData (s.port.reports.take count.toNat))

/-- READ_PEERS (R68, R176). -/
def runReadPeers (s : State) : State := s.guarded .readPeers fun s => s.answer .readPeers .ok (peersData s.sync.peers)

/-- The soft record of SNAPSHOT (R159). -/
def softRecord (s : State) : LogBody :=
  { station := s.number, channel := .soft, edge := .soft, stamp := s.stampTime,
    base := if s.valid then .clusterTime else .localTicks, synced := s.synced, remote := none }

/-- SNAPSHOT (R159, R176). -/
def runSnapshot (s : State) : State :=
  s.guarded .snapshot fun s =>
    let (s', sequence) := s.enterLog s.softRecord
    s'.answer .snapshot .ok (snapshotData sequence)

/-- DRIVE (R127, R128): kind 0 SET, 1 CLEAR, 2 TOGGLE, applied as a firing of the same kind. -/
def runDrive (s : State) (line kind : Byte) : State :=
  let c := Command.drive line kind
  s.guarded c fun s =>
    if 3 ≤ kind.toNat || 8 ≤ line.toNat then s.answer c .badParam []
    else if !s.enabled (eighthIn line) then s.answer c .badLine []
    else
      let action : ActionKind := if kind = 0 then .set else if kind = 1 then .clear else .toggle
      let s' := s.applyFiring (eighthIn line) action 0 { origin := 0, serial := 0 } 0
      s'.answer c .ok (driveData s'.out.lines)

/-- The execution of a command, whichever it is. -/
def run (s : State) : Command → State
  | .nop => s.runNop
  | .status => s.runStatus
  | .configure block => s.runConfigure block
  | .start => s.runStart
  | .stop => s.runStop
  | .post scope fields => s.runPost scope fields
  | .amend scope selector serial new => s.runAmend scope selector serial new
  | .cancel scope selector serial => s.runCancel scope selector serial
  | .find origin serial => s.runFind origin serial
  | .readLog count => s.runReadLog count
  | .readReports count => s.runReadReports count
  | .readPeers => s.runReadPeers
  | .snapshot => s.runSnapshot
  | .drive line kind => s.runDrive line kind

end State

/-! ### The rows that execute the current command. Where the port holds no current command of that name whose execution may
come, the row is not an event of the part and nothing changes (log 2, 5). -/

/-- The outcomes of the model's steps. -/
abbrev Result := Host.Outcome State Fault Refusal

def execNop (s : State) : Result :=
  match s.ready with
  | some .nop => .next s.runNop
  | _ => .next s

def execStatus (s : State) : Result :=
  match s.ready with
  | some .status => .next s.runStatus
  | _ => .next s

def execConfigure (s : State) : Result :=
  match s.ready with
  | some (.configure block) => .next (s.runConfigure block)
  | _ => .next s

def execStart (s : State) : Result :=
  match s.ready with
  | some .start => .next s.runStart
  | _ => .next s

def execStop (s : State) : Result :=
  match s.ready with
  | some .stop => .next s.runStop
  | _ => .next s

def execPost (s : State) : Result :=
  match s.ready with
  | some (.post scope fields) => .next (s.runPost scope fields)
  | _ => .next s

def execAmend (s : State) : Result :=
  match s.ready with
  | some (.amend scope selector serial new) => .next (s.runAmend scope selector serial new)
  | _ => .next s

def execCancel (s : State) : Result :=
  match s.ready with
  | some (.cancel scope selector serial) => .next (s.runCancel scope selector serial)
  | _ => .next s

def execFind (s : State) : Result :=
  match s.ready with
  | some (.find origin serial) => .next (s.runFind origin serial)
  | _ => .next s

def execReadLog (s : State) : Result :=
  match s.ready with
  | some (.readLog count) => .next (s.runReadLog count)
  | _ => .next s

def execReadReports (s : State) : Result :=
  match s.ready with
  | some (.readReports count) => .next (s.runReadReports count)
  | _ => .next s

def execReadPeers (s : State) : Result :=
  match s.ready with
  | some .readPeers => .next s.runReadPeers
  | _ => .next s

def execSnapshot (s : State) : Result :=
  match s.ready with
  | some .snapshot => .next s.runSnapshot
  | _ => .next s

def execDrive (s : State) : Result :=
  match s.ready with
  | some (.drive line kind) => .next (s.runDrive line kind)
  | _ => .next s

end Sys2Proof.Machine
end

