-- ==== Sys2Proof/Machine/LineEvents.lean ====
section
/-! DEFINITION. The events of the cluster line (01, 02): idle and slots, the start of an own frame, reception, the outcome of
an own frame, the stuck line; and what the sync, membership, exchange and capture units do with a valid frame (R15, R54,
R55, R81, R88, R135–R140, R143, R158). -/

namespace Sys2Proof.Machine

/-! ### The offered frame (R23, R24) -/

/-- The class of a record (R18). -/
def TxRecord.frameClass (r : TxRecord) : Nat := r.kind.frameClass

/-- The lowest class present (R23). -/
def lowestClass (queue : List TxRecord) : Nat := queue.foldl (fun c r => min c r.frameClass) 3

/-- The place of the offered frame: among the records of the lowest class the one that arrived first; none while a record
is in transmission or the queue is empty (R23). -/
def offeredPlace (queue : List TxRecord) : Option Nat :=
  if queue.any (·.inTransmission) then none else queue.findIdx? (fun r => r.frameClass = lowestClass queue)

/-- rank = (station number − round number) mod 16 (R24). -/
def rank (number : Station) (round : Time) : Nat := (number.val + 16 - round.toNat % 16) % 16

/-- The contention value 16 × class + rank (R24). -/
def contentionValue (frameClass : Nat) (number : Station) (round : Time) : Nat := 16 * frameClass + rank number round

namespace State

/-- The choice of the offered frame and its value (R23, R24). -/
def chooseOffer (s : State) : Option Offer :=
  match offeredPlace s.cont.queue with
  | none => none
  | some place =>
    match s.cont.queue[place]? with
    | none => none
    | some r => some { place := place, value := contentionValue r.frameClass s.number s.round }

/-- The SOF record taken now (R8). -/
def sofNow (s : State) : SofRecord := { localStamp := s.clock.ticks, clusterStamp := s.clock.cluster }

/-- The end of idle: the slot counter holds no slot and nothing is offered until the next idle signal (R22, R26). -/
def endIdle (s : State) : State := s.withCont s.cont.silent

/-- The frame at a place of the queue starts: the record is marked, the idle period ends with the own start bit, and the
line unit sends, a BEACON with the cluster stamp of this SOF as its sender time (R11, R25). -/
def startFrame (s : State) (place : Nat) : State :=
  match s.cont.queue[place]? with
  | none => s
  | some r =>
    (s.withCont { s.cont.silent with queue := s.cont.queue.set place { r with inTransmission := true } }).withLine
      { s.line with receiver := .send, sof := some s.sofNow, frame := none,
                    sending := frameBytes s.number s.now r.payload, afterSend := .inStep, dominantRun := 0,
                    recessiveRun := 0 }

/-- An evaluation of this tick has handed over a split or a join failure that is not yet taken (R66). -/
def departureHanded (s : State) : Bool :=
  s.owed.verdict.any fun h => decide (h.verdict = .split) || decide (h.verdict = .joinFailure)

/-- The conditions of R25 for the offered frame at the slot that begins. While the departure that an evaluation has handed over is
still to be taken, the beacon of that evaluation does not start, since it is never sent (R66). -/
def mayStart (s : State) (slot : Fin 64) (o : Offer) : Bool :=
  o.value = slot.val && s.line.receiver = .wait && !s.line.muted
  && (match s.cont.queue[o.place]? with
    | none => false
    | some r => takesKind r.kind s.member.state && !(decide (r.kind = .beacon) && s.departureHanded))

/-- The slot that begins next (R22): slot 0 at the idle signal, then one after another, slot 0 after slot 63. -/
def nextSlot (s : State) : Fin 64 :=
  match s.cont.slot with
  | none => 0
  | some n => n + 1

/-- The slot counter and the offered frame as the next slot begins; the recessive run is 12 bit times at slot 0 and grows
by 2 with each slot (R22, R23). -/
def beginSlot (s : State) : State :=
  (s.withCont { s.cont with slot := some s.nextSlot, offered := s.chooseOffer }).withLine
    { s.line with recessiveRun := if s.cont.slot.isNone then Config.gapBits else s.line.recessiveRun + 2 }

/-! ### Valid frames at the receiving blocks -/

/-- Adoption of a MEMBER beacon in LISTEN (R48, R81). -/
def adopt (s : State) (time : Time) (sof : Option SofRecord) : State :=
  let stamp := (sof.map (·.localStamp)).getD s.clock.ticks
  let adopted := time + s.config.linkDelay.zeroExtend 32 + (s.clock.ticks - stamp)
  let s1 := s.withClock { s.clock with cluster := some adopted, slew := 0, spacing := 0, listen := none }
  let s2 := s1.withSync { s1.sync with joinRounds := 0, noFresh := 0 }
  (s2.withMember { s2.member with alone := true }).changeState .joining .adopted

/-- Beacon receipt in JOINING and MEMBER: offset, sender fields, fresh; without a cluster stamp the beacon is discarded
(R55, R56). -/
def recordBeacon (s : State) (sender : Station) (time : Time) (body : BeaconBody) (sof : Option SofRecord) : State :=
  match sof.bind (·.clusterStamp) with
  | none => s
  | some stamp =>
    let offset := time + s.config.linkDelay.zeroExtend 32 - stamp
    let r := s.sync.peers[sender]
    s.withSync { s.sync with
      peers := s.sync.peers.set sender { r with fresh := true, beacon := some { offset := offset, body := body } } }

/-- A valid BEACON at the sync unit (R54–R56). -/
def takeBeacon (s : State) (sender : Station) (time : Time) (body : BeaconBody) (sof : Option SofRecord) : State :=
  match s.member.state with
  | .listen => if body.member then s.adopt time sof else s
  | .joining | .member => s.recordBeacon sender time body sof
  | .unconfigured | .ready | .stopped => s

/-- The claim or request that the exchange unit handed on first is taken. The scheduler decides a claim, and a refusal makes a
request for a REFUSE, which comes next (log 25); the contention unit decides that request (R136–R139, R19, R20). -/
def takeHandedOn (s : State) : State :=
  match s.owed.exchange with
  | [] => s
  | .claim sender p :: rest =>
    match (s.withOwed { s.owed with exchange := rest }).applyClaim sender .remote p with
    | (s', none) => s'
    | (s', some (id, reason)) => s'.withOwed { s'.owed with exchange := .refusal id reason :: rest }
  | .refusal id reason :: rest => (s.withOwed { s.owed with exchange := rest }).refuse id reason

/-- All that the exchange unit has handed on is taken, in its order. A claim makes at most one request. -/
def takeAllHandedOn (s : State) : State := (List.range (2 * s.owed.exchange.length)).foldl (fun s _ => s.takeHandedOn) s

/-- A valid ACTION, AMEND or CANCEL of another station: passed over outside MEMBER or when its selector does not pass the windows;
otherwise its claim is handed to the scheduler (R135–R139), and taken at once or left to be taken later in the tick (log 25). -/
def takeRemote (s : State) (atOnce : Bool) (sender : Station) (p : Payload) : State :=
  if s.member.state = .member && s.admits p then
    let s' := s.withOwed { s.owed with exchange := s.owed.exchange ++ [.claim sender p] }
    if atOnce then s'.takeAllHandedOn else s'
  else s

/-- A valid REFUSE: reported when its origin field is this station's number (R140). -/
def takeRefuse (s : State) (sender origin : Station) (serial : Half) (reason : Byte) : State :=
  if s.member.state = .member && origin = s.number then
    s.report (.refused { origin := s.number, serial := serial } sender reason)
  else s

/-- The remote record of an EVENT (R158). -/
def remoteRecord (sender : Station) (channel : Fin 8) (edge : EdgeDir) (stamp : Time) (sequence : Half) : LogBody :=
  { station := sender, channel := .input channel, edge := match edge with | .rise => .rise | .fall => .fall,
    stamp := stamp, base := .clusterTime, synced := true, remote := some sequence }

/-- A valid EVENT: a remote record in MEMBER when its selector passes the windows (R158). -/
def takeEvent (s : State) (sender : Station) (selector : Half) (channel : Fin 8) (edge : EdgeDir) (stamp : Time)
    (sequence : Half) : State :=
  if s.member.state = .member && s.passes selector then (s.enterLog (remoteRecord sender channel edge stamp sequence)).1
  else s

/-- A valid frame is handed on by kind; the own number stops the station (R15, R16). -/
def handOn (s : State) (atOnce : Bool) (f : Frame) (sof : Option SofRecord) : State :=
  if f.sender = s.number then s.enterStopped .duplicate
  else
    match f.payload with
    | .beacon time body => s.takeBeacon f.sender (time.getD 0) body sof
    | .action fields => s.takeRemote atOnce f.sender (.action fields)
    | .amend selector serial new => s.takeRemote atOnce f.sender (.amend selector serial new)
    | .cancel selector serial => s.takeRemote atOnce f.sender (.cancel selector serial)
    | .event selector channel edge stamp sequence => s.takeEvent f.sender selector channel edge stamp sequence
    | .refuse origin serial reason => s.takeRefuse f.sender origin serial reason

/-! ### Reception (R7, R9) -/

/-- A receive error: the frame is discarded, counted in JOINING and MEMBER, and the receiver goes to SEEK (R7, R9). -/
def receiveError (s : State) : State :=
  let counted := s.member.state = .joining || s.member.state = .member
  s.withLine { s.line with
    receiver := .seek, sof := none, frame := none,
    errors := if counted then min (s.line.errors + 1) Config.count16Limit else s.line.errors }

/-- The recessive run when the gap within the frame has reached `gap` with these samples. In a gap that goes on it grows with the gap,
and is behind it after a rejected start edge, which has restarted the run alone (R1, R6, R14); in the gap after a character that the
samples complete it is that gap. -/
def runAtGap (s : State) (f : PartialFrame) (samples : List Bool) (gap : Nat) : Nat :=
  if f.bits = [] && (samples.take (Config.truncationBits - f.gap)).all id then s.line.recessiveRun + (gap - f.gap) else gap

/-- The gap within a frame has reached 11 bit times, the last of them by these samples, or with the row that says so: the frame is
truncated (R6, R9). -/
def truncate (s : State) (f : PartialFrame) (samples : List Bool) : State :=
  (s.withLine { s.line with
    dominantRun := 0, recessiveRun := s.runAtGap f samples Config.truncationBits }).receiveError

/-- The samples of the line after a partial frame, to the frame's end or as far as they go (R7). The line unit's record is
handed on with a valid frame. -/
def receive (s : State) (atOnce : Bool) (f : PartialFrame) (samples : List Bool) : State :=
  let s1 := s.withLine { s.line with dominantRun := runAfter s.line.dominantRun samples, recessiveRun := 0 }
  match takeSamples f samples with
  | .more f' => s1.withLine { s1.line with frame := some f', recessiveRun := s.runAtGap f samples f'.gap }
  | .truncated => s.truncate f samples
  | .error => s1.receiveError
  | .valid frame => (s1.withLine { s1.line with receiver := .wait, sof := none, frame := none }).handOn atOnce frame s.line.sof

/-- The samples go on with the frame in hand, in RECEIVE. -/
def complete (s : State) (atOnce : Bool) (samples : List Bool) : State :=
  match s.line.receiver, s.line.frame with
  | .receive, some f => s.receive atOnce f samples
  | _, _ => s

/-! ### The outcome of an own frame (R29–R34) -/

/-- What names a frame in TX_ABANDONED (R30). -/
def abandonedDetail (number : Station) (r : TxRecord) : FrameDetail :=
  match r.payload with
  | .beacon _ _ => .none
  | .action f => .action { origin := number, serial := f.serial }
  | .amend _ serial _ => .action { origin := number, serial := serial }
  | .cancel _ serial => .action { origin := number, serial := serial }
  | .refuse origin serial _ => .action { origin := origin, serial := serial }
  | .event _ _ _ _ sequence => .reflex (r.reflexEntry.getD 0) (some sequence)

/-- The record in transmission leaves the queue. -/
def removeTransmitted (s : State) : State :=
  s.withCont { s.cont with queue := s.cont.queue.filter (fun r => !r.inTransmission) }

/-- Self-delivery (R143): in MEMBER the frame is applied as an inbound one; a refusal is reported with this station as the
refusing one. -/
def selfDeliver (s : State) (p : Payload) : State :=
  if s.member.state = .member && s.admits p then
    match s.applyClaim s.number .selfDelivery p with
    | (s', none) => s'
    | (s', some (id, reason)) => s'.report (.refused id s.number reason)
  else s

/-- The outcome success at the contention unit (R31, R34). -/
def transmissionSucceeded (s : State) : State :=
  match s.cont.queue.find? (·.inTransmission) with
  | none => s
  | some r =>
    let s' := s.removeTransmitted
    if r.isVoid || !r.selfDelivery then s' else s'.selfDeliver r.payload

/-- The outcome mismatch at the contention unit (R29, R30, R34). -/
def transmissionFailed (s : State) : State :=
  match s.cont.queue.find? (·.inTransmission) with
  | none => s
  | some r =>
    if r.isVoid then s.removeTransmitted
    else if Config.attemptLimit ≤ r.attempts + 1 then
      s.removeTransmitted.report (.txAbandoned r.kind (abandonedDetail s.number r))
    else
      s.withCont { s.cont with queue := s.cont.queue.map fun x =>
        if x.inTransmission then { x with attempts := x.attempts + 1, inTransmission := false } else x }

/-- The line unit when an own frame is over, in a receiver state and with the dominant run that the line then holds (R12, R13, R17). -/
def endSend (s : State) (receiver : Receiver) (run : Nat) : State :=
  s.withLine { s.line with receiver := receiver, sof := none, frame := none, sending := [], afterSend := .inStep,
                           dominantRun := run, recessiveRun := 0 }

/-- The receiver state after a success (R12, R17). -/
def receiverAfterSend (a : AfterSend) : Receiver :=
  match a with
  | .inStep => .wait
  | .off => .off
  | .seek => .seek

/-- The line unit after a mismatch at a bit: in step it receives the other station's frame, whose bits up to and including
the mismatching one it has read, with the SOF record; otherwise it stops without assembling the rest (R12, R17). The run that the
mismatching bit belongs to goes on, but for OFF, where none is counted (R13, R17). -/
def afterMismatch (s : State) (bit : Nat) : State :=
  let read := (bitsOfFrame s.line.sending).take bit ++ [false]
  match s.line.afterSend with
  | .off => s.endSend .off 0
  | .seek => s.endSend .seek (runAfter s.line.dominantRun read)
  | .inStep =>
    (s.withLine { s.line with receiver := .receive, sending := [] }).receive true (.awaiting []) read

/-- The line is stuck (R13): no frame in hand, receiver STUCK, muted, one LINE report if it was not muted yet. -/
def stick (s : State) : State :=
  let s1 := (s.withLine { s.line with
    receiver := .stuck, sof := none, frame := none, sending := [], afterSend := .inStep,
    dominantRun := Config.stuckBits, recessiveRun := 0, muted := true }).endIdle
  if s.line.muted then s1 else s1.report (.line .stuck)

end State

/-! ### The rows -/

/-- LINE_IDLE (R6): the receiver is in step, and idle is signalled; slot 0 begins. -/
def execLineIdle (s : State) : Result :=
  if (s.line.receiver = .seek || s.line.receiver = .wait) && !s.cont.idle then
    .next ((s.withLine { s.line with receiver := .wait, dominantRun := 0, recessiveRun := Config.gapBits }).withCont
      { s.cont with idle := true, slot := none, offered := none })
  else .next s

/-- IDLE_SLOT (R22–R25, R27). -/
def execIdleSlot (s : State) : Result :=
  if s.cont.idle then
    let s1 := s.beginSlot
    match s1.cont.offered with
    | none => .next s1
    | some o => if s1.mayStart s.nextSlot o then .next (s1.startFrame o.place) else .next s1
  else .next s

/-- START_OF_FRAME (R8, R22, R26): the idle period ends, a waiting frame defers, and the record of the new frame is taken. -/
def execStartOfFrame (s : State) : Result :=
  if s.line.receiver = .wait then
    .next (s.withLine { s.line with
      receiver := .receive, sof := some s.sofNow, frame := some .started, dominantRun := 1,
      recessiveRun := 0 }).endIdle
  else .next s

/-- FRAME_TRUNCATED (R6, R9): the gap is measured between characters. -/
def execFrameTruncated (s : State) : Result :=
  match s.line.receiver, s.line.frame with
  | .receive, some f =>
    if f.bits = [] then
      .next (s.truncate f [])
    else .next s
  | _, _ => .next s

/-- FRAME_COMPLETION (R7, R9, R15, R16), or what the exchange unit handed on at an earlier one of the tick (R136–R139). -/
def execFrameCompletion (event : FrameEvent) (s : State) : Result :=
  match event with
  | .whole samples => .next (s.complete true samples)
  | .handOver samples => .next (s.complete false samples)
  | .next => .next s.takeHandedOn

/-- TRANSMISSION_SUCCESS (R12, R31, R34). -/
def execTransmissionSuccess (s : State) : Result :=
  if s.line.receiver = .send then
    .next (s.endSend (State.receiverAfterSend s.line.afterSend) 0).transmissionSucceeded
  else .next s

/-- READBACK_MISMATCH (R12, R29, R30, R34): the bit was sent recessive. -/
def execReadbackMismatch (bit : Nat) (s : State) : Result :=
  if s.line.receiver = .send && (bitsOfFrame s.line.sending)[bit]? = some true then
    .next (s.transmissionFailed.afterMismatch bit)
  else .next s

/-- LINE_STUCK (R6, R13). A dominant run of this length in SEND has met a stop bit sent recessive, so the attempt fails first; that no
receive error is counted for that stop bit is the model's choice (log 11). A frame that was to end in OFF leaves the receiver there,
where no run is counted (R17). -/
def execLineStuck (s : State) : Result :=
  match s.line.receiver with
  | .off | .stuck => .next s
  | .seek | .wait | .receive => .next s.stick
  | .send =>
    match s.line.afterSend with
    | .off => .next (s.transmissionFailed.endSend .off 0)
    | .inStep | .seek => .next s.transmissionFailed.stick

/-- STUCK_RUN_END (R6, R13, R14): the return to recessive. -/
def execStuckRunEnd (s : State) : Result :=
  if s.line.receiver = .stuck then
    .next (s.withLine { s.line with receiver := .seek, dominantRun := 0, recessiveRun := 0 })
  else .next s

/-- LINE_RELEASED (R14). -/
def execLineReleased (s : State) : Result :=
  if s.line.muted && (s.line.receiver = .wait || s.line.receiver = .seek) then
    .next ((s.withLine { s.line with muted := false, recessiveRun := Config.releaseBits }).report (.line .released))
  else .next s

/-- REJECTED_START_EDGE (R1, R6, R14, R22): the edge ends an idle period and restarts the count of recessive, but not the gap within
a frame. An edge that had taken the receiver from WAIT leaves it in WAIT again; within a character no start edge is awaited, and the
row changes nothing (log 10). -/
def execRejectedStartEdge (s : State) : Result :=
  match s.line.receiver with
  | .off | .send | .stuck => .next s
  | .seek => .next (s.withLine { s.line with dominantRun := 0, recessiveRun := 0 })
  | .wait => .next (s.withLine { s.line with dominantRun := 0, recessiveRun := 0 }).endIdle
  | .receive =>
    if s.line.frame = some .started then
      .next (s.withLine { s.line with receiver := .wait, sof := none, frame := none, dominantRun := 0, recessiveRun := 0 })
    else if s.line.frame.any (fun f => f.bits = []) then
      .next (s.withLine { s.line with dominantRun := 0, recessiveRun := 0 })
    else .next s

end Sys2Proof.Machine
end

