-- ==== Sys2Proof/Machine/TimeEvents.lean ====
section
/-! DEFINITION. The events of time: the tick (03), the round boundary with the evaluation of the sync unit (04), the end of
the listen window (R80), firing (R104), the end of a pulse (R125), a qualified edge with its reflexes (09), and hardware
reset (R93). -/

namespace Sys2Proof.Machine

/-! ### The boundary evaluation (R57–R65) -/

/-- The beacon of a fresh peer record. -/
def PeerRecord.freshBeacon (r : PeerRecord) : Option BeaconFields := if r.fresh && r.state ≠ .self then r.beacon else none

/-- The magnitude of an offset; that of −2³¹ is 2³¹ (R57). -/
def BeaconFields.magnitude (b : BeaconFields) : Nat := b.offset.toInt.natAbs

/-- Fresh, sender MEMBER, offset of magnitude at most the outlier bound (R57). -/
def PeerRecord.inBound (bound : Nat) (r : PeerRecord) : Bool :=
  match r.freshBeacon with
  | none => false
  | some b => b.body.member && b.magnitude ≤ bound

/-- Fresh, sender MEMBER, offset of magnitude above the outlier bound (R57). -/
def PeerRecord.outOfBound (bound : Nat) (r : PeerRecord) : Bool :=
  match r.freshBeacon with
  | none => false
  | some b => b.body.member && bound < b.magnitude

/-- The station numbers, in order, whose record satisfies a test. -/
def stationsWhere (peers : Vector PeerRecord 16) (test : PeerRecord → Bool) : List Station :=
  (List.finRange 16).filter fun i => test peers[i]

/-- The offsets of the in-bound set (R58). -/
def inBoundOffsets (bound : Nat) (peers : Vector PeerRecord 16) : List Int :=
  (stationsWhere peers (·.inBound bound)).map fun i => ((peers[i]).beacon.map (·.offset.toInt)).getD 0

/-- The raw correction: the mean, rounded toward zero, of this station's 0 and the in-bound offsets, less one largest and
one smallest when there are three or more (R58). -/
def rawCorrection (offsets : List Int) : Int :=
  let count : Int := offsets.length + 1
  let trimmed := offsets.sum - offsets.foldl max 0 - offsets.foldl min 0
  if offsets.length < 2 then offsets.sum.tdiv count else trimmed.tdiv (count - 2)

/-- The applied correction: the raw one limited to −max step … +max step (R58). -/
def appliedCorrection (maxStep : Nat) (raw : Int) : Int := max (-(maxStep : Int)) (min (maxStep : Int) raw)

/-- The new state and missed count of a record, its fresh flag cleared (R59). -/
def PeerRecord.evaluated (bound lostLimit : Nat) (r : PeerRecord) : PeerRecord :=
  match r.state, r.freshBeacon with
  | .self, _ => { r with fresh := false }
  | _, some b =>
    { r with state := if b.body.member && b.magnitude ≤ bound then .synced else .heard, fresh := false, missed := 0 }
  | .absent, none => { r with fresh := false }
  | .lost, none => { r with fresh := false, missed := min (r.missed + 1) 15 }
  | .heard, none | .synced, none =>
    { r with state := if lostLimit ≤ r.missed + 1 then .lost else r.state, fresh := false, missed := min (r.missed + 1) 15 }

/-- The round is a split round: B > A, or B = A with the lowest number out of bound below the lowest of this station's side
(R62). -/
def splitRound (number : Station) (inside outside : List Station) : Bool :=
  let a := inside.length + 1
  let b := outside.length
  let lowest (l : List Station) : Nat := l.foldl (fun m i => min m i.val) 16
  decide (a < b) || (decide (b = a) && decide (lowest outside < lowest (number :: inside)))

namespace State

/-- The peer table after an evaluation (R59). -/
def evaluatedPeers (s : State) : Vector PeerRecord 16 :=
  Vector.ofFn fun i => (s.sync.peers[i]).evaluated s.config.outlierBound.toNat s.config.lostLimit

/-- The raw correction of an evaluation (R58). -/
def evaluatedRaw (s : State) : Int := rawCorrection (inBoundOffsets s.config.outlierBound.toNat s.sync.peers)

/-- The join test (R63). -/
def joinTest (s : State) : Bool :=
  !(stationsWhere s.sync.peers (·.inBound s.config.outlierBound.toNat)).isEmpty
  && s.evaluatedRaw.natAbs ≤ s.config.syncBound.toNat

/-- The split test of this table (R62). -/
def splitTest (s : State) : Bool :=
  splitRound s.number (stationsWhere s.sync.peers (·.inBound s.config.outlierBound.toNat))
    (stationsWhere s.sync.peers (·.outOfBound s.config.outlierBound.toNat))

/-- A fresh record whose sender state is MEMBER exists, in bound or not (R64). -/
def heardMember (s : State) : Bool :=
  s.sync.peers.toList.any fun r => match r.freshBeacon with
    | none => false
    | some b => b.body.member

/-- The counts after an evaluation (R62, R64): the split count in MEMBER, the join counts in JOINING. -/
def evaluatedCounts (s : State) : Nat × Nat × Nat :=
  let y := s.sync
  match s.member.state with
  | .member => (if s.splitTest then y.splitCount + 1 else 0, y.joinRounds, y.noFresh)
  | .joining => (y.splitCount, y.joinRounds + 1, if s.heardMember then 0 else y.noFresh + 1)
  | .unconfigured | .ready | .listen | .stopped => (y.splitCount, y.joinRounds, y.noFresh)

/-- The outcome for the membership controller (R62–R64). The count stays at the split limit, where it is handed over. -/
def verdict (s : State) : Verdict :=
  let (splits, rounds, silent) := s.evaluatedCounts
  match s.member.state with
  | .member => if s.config.splitLimit ≤ splits then .split else .none
  | .joining =>
    if s.joinTest then .join
    else if 2 * s.config.listenRounds ≤ rounds || s.config.lostLimit ≤ silent then .joinFailure
    else .none
  | .unconfigured | .ready | .listen | .stopped => .none

/-- One PEER report for each record whose state an evaluation changed, in order of station number (R60). -/
def reportPeers (s : State) (before after : Vector PeerRecord 16) : State :=
  (List.finRange 16).foldl (fun s i =>
    if (before[i]).state = (after[i]).state then s
    else s.report (.peer i (before[i]).state (after[i]).state ((after[i]).beacon.map (·.offset)))) s

/-- The alone flag is set; a change in MEMBER makes an ALONE report (R61). -/
def setAlone (s : State) (alone : Bool) : State :=
  let s' := s.withMember { s.member with alone := alone }
  if s.member.state = .member && s.member.alone ≠ alone then s'.report (.alone alone) else s'

/-- This station's beacon as an evaluation builds it (R65). -/
def ownBeacon (s : State) (after : Vector PeerRecord 16) (joins : Bool) : BeaconBody :=
  let synced := stationsWhere after (fun r => r.state = .synced)
  { member := s.member.state = .member || joins, alone := synced.isEmpty, count := BitVec.ofNat 8 (synced.length + 1),
    bitmap := synced.foldl (fun m i => m ||| (1 <<< i.val)) 0 }

/-- The evaluation at the sync unit up to its reports: peer states, PEER reports, counts, alone flag (R57–R64). -/
def evaluate (s : State) : State :=
  let after := s.evaluatedPeers
  let (splits, rounds, silent) := s.evaluatedCounts
  let s1 := (s.withSync { peers := after, splitCount := splits, joinRounds := rounds, noFresh := silent }).reportPeers
    s.sync.peers after
  s1.setAlone s1.noneSynced

/-- The correction becomes the new slew remainder and the spacing counter is 0; a clock with no valid time discards it
(R40, R41). -/
def setCorrection (s : State) (correction : Int) : State :=
  if s.valid then s.withClock { s.clock with slew := correction, spacing := 0 } else s

/-- A join taken in JOINING (R83). -/
def join (s : State) : State := if s.member.state = .joining then s.changeState .member .joined else s

/-- The membership controller takes the verdict against the state it finds (R73, R83, R84, R86). -/
def takeVerdict (s : State) (v : Verdict) : State :=
  match v, s.member.state with
  | .join, .joining => s.join
  | .joinFailure, .joining => s.teardownToListen .joinFailed
  | .split, .member => s.teardownToListen .split
  | _, _ => s

/-- The LINE_ERRORS report of a boundary, when its turn has come and errors were counted (R10). -/
def lineErrors (s : State) (now turn : LineTurn) (errors : Nat) (stamp : Time) : State :=
  if now = turn && 0 < errors then
    s.queueReport { detail := .lineErrors errors, stamp := stamp, unsynced := false }
  else s

/-- The boundary is taken: its verdict is handed to the membership controller, and the line unit clears its count, but for the turn
`last`, at which it takes the boundary after the membership controller (R10, R66). -/
def beginBoundary (s : State) (turn : LineTurn) : State :=
  (s.withOwed { s.owed with boundary := false, verdict := some { verdict := s.verdict, turn := turn } }).withLine
    { s.line with errors := if turn = .last then s.line.errors else 0 }

/-- The evaluation of a boundary with the reports, the correction and the beacon that come of it (R10, R57–R66, log 22). That a
LINE_ERRORS report before the STATE report is queued within it, so that no report of a third block and no command comes between that
report and the PEER reports, is the model's choice (log 7). -/
def evaluation (s : State) (turn : LineTurn) : State :=
  let s1 := ((s.beginBoundary turn).lineErrors .first turn s.line.errors s.now).evaluate
  let s2 := s1.lineErrors .middle turn s.line.errors s.now
  let s3 := s2.setCorrection (appliedCorrection s.config.maxStep.toNat s.evaluatedRaw)
  s3.requestBeacon (s3.ownBeacon s3.sync.peers (s.verdict = .join))

/-- A handed verdict is no longer handed, and the line unit takes the boundary if its turn is the last (R10). -/
def dropVerdict (s : State) (turn : LineTurn) : State :=
  (s.withOwed { s.owed with verdict := none }).withLine { s.line with errors := if turn = .last then 0 else s.line.errors }

/-- The membership controller takes the verdict handed to it against the state it finds, and the line unit its turn after that
(R66, R73–R75). A departure taken since the evaluation has reported the count before it left (R43) and cleared it; the report that
follows a departure by this verdict carries the count and the time from before it (log 7). -/
def takeHandedVerdict (s : State) : State :=
  match s.owed.verdict with
  | none => s
  | some h => ((s.dropVerdict h.turn).takeVerdict h.verdict).lineErrors .last h.turn s.line.errors s.now

/-- The round boundary in JOINING or MEMBER with what comes of it at once (R10, R42, R57, R66). -/
def boundary (s : State) (turn : LineTurn) : State := (s.evaluation turn).takeHandedVerdict

/-! ### Founding (R47, R80), firing (R104), the end of a pulse (R125) -/

/-- The listen window expires in LISTEN: cluster time 0, MEMBER (R47, R80). -/
def found (s : State) : State :=
  let s1 := s.withClock { s.clock with cluster := some 0, slew := 0, spacing := 0, listen := none }
  (s1.withMember { s1.member with alone := true }).changeState .member .founded

/-- The listen window count has reached W (R45). -/
def windowExpired (s : State) : Bool :=
  s.member.state = .listen && (match s.clock.listen with
    | none => false
    | some count => s.listenWindow ≤ count)

/-- An entry is due in the advance from `c` to `c'`: after c and not after c' (R104). -/
def dueIn (c c' : Time) (e : Entry) : Bool := isAfter e.due c && !isAfter e.due c'

/-- The due entries fire in queue order (R104). They leave the queue first, so that each re-insertion is placed among the
entries that wait. -/
def fireDue (s : State) (c : Time) : State :=
  let due := s.sched.queue.filter (dueIn c s.now)
  let s0 := (s.withOwed { s.owed with fireFrom := none }).withSched
    { s.sched with queue := s.sched.queue.filter (fun e => !dueIn c s.now e) }
  due.foldl (fun s e => s.fire e none) s0

/-- The pending trailing edge of a line ends if the last tick reached it (R125). -/
def endPulse (s : State) (line : Fin 8) : State :=
  match s.out.lines[line] with
  | .driven _ (some e) =>
    if e.reached then s.withOut { lines := s.out.lines.set line (.driven (s.defaultHigh line) none) } else s
  | _ => s

/-! ### A qualified edge (R150–R153) and its reflexes (R161–R166) -/

/-- A mode selects an edge (R149, R153). -/
def selects : InputMode → EdgeDir → Bool
  | .off, _ => false
  | .rising, e => e = .rise
  | .falling, e => e = .fall
  | .both, _ => true

/-- The stamp and time base of an edge, from its first-sample record and the validity at qualification (R151). -/
def edgeStamp (s : State) (first : SampleRecord) : Time × TimeBase :=
  match s.valid, first.cluster with
  | true, some t => (t, .clusterTime)
  | _, _ => (first.ticks, .localTicks)

/-- The record of a local edge (R154). -/
def edgeRecord (s : State) (input : Fin 8) (edge : EdgeDir) (stamp : Time) (base : TimeBase) : LogBody :=
  { station := s.number, channel := .input input, edge := match edge with | .rise => .rise | .fall => .fall, stamp := stamp,
    base := base, synced := s.member.state = .member && base = .clusterTime, remote := none }

/-- A reflex serial is taken: the counter advances and wraps from FFFFh to 8000h (R146). -/
def takeSerial (s : State) : State :=
  let next := if s.cap.reflexSerial = 0xFFFF then Config.firstReflexSerial else s.cap.reflexSerial + 1
  s.withCap { s.cap with reflexSerial := next }

/-- The action of a reflex: notify and repeat clear, due the stamp plus the delay (R164, R165). -/
def reflexAction (s : State) (x : ReflexEntry) (stamp : Time) : ActionFields :=
  { selector := x.selector, serial := s.cap.reflexSerial, due := stamp + x.delay.zeroExtend 32, line := x.line, kind := x.kind,
    notify := false, width := if x.kind = .pulse then some x.width else none, rep := none }

/-- The NOT_SENT report of an entry for an edge at whose start `earlier` insertions waited: queued at once, unless the insertion of an
earlier entry for the same edge waits; then it stands behind that one's own reports (R163, R164, R166, log 17). -/
def reportNotSent (s : State) (earlier : Nat) (kind : FrameKind) (n : Fin 16) : State :=
  if s.owed.insertions.length ≤ earlier then s.report (.notSent kind (.reflex n none))
  else
    match s.owed.insertions.getLast? with
    | none => s
    | some h =>
      let waits : NotSent := { kind := kind, entry := n, stamp := s.stampTime, unsynced := s.unsynced }
      s.withOwed { s.owed with insertions := s.owed.insertions.dropLast ++ [{ h with behind := h.behind ++ [waits] }] }

/-- A PUBLISH reflex (R163). -/
def publish (s : State) (earlier : Nat) (n : Fin 16) (x : ReflexEntry) (stamp : Time) : State :=
  match s.enqueue (.fresh (.event x.selector x.input x.edge stamp s.cap.eventCounter) false (some n)) with
  | (s', .appended) => s'.withCap { s'.cap with eventCounter := s'.cap.eventCounter + 1 }
  | (s', .full) => s'.reportNotSent earlier .event n
  | (s', .discarded) => s'

/-- A POST reflex (R164). -/
def reflexPost (s : State) (earlier : Nat) (n : Fin 16) (x : ReflexEntry) (stamp : Time) : State :=
  match s.enqueue (.fresh (.action (s.reflexAction x stamp)) true (some n)) with
  | (s', .appended) => s'.takeSerial
  | (s', .full) => s'.reportNotSent earlier .action n
  | (s', .discarded) => s'

/-- The scheduler takes an insertion with source REFLEX; a refusal is reported with this station as the refusing one, and NOT
MEMBER is discarded with no report (R165). -/
def insertReflex (s : State) (action : ActionFields) : State :=
  match s.insert (action.entry s.number .reflex) with
  | (s', result) => match result.reason with
    | none => s'
    | some reason => s'.report (.refused { origin := s.number, serial := action.serial } s.number reason)

/-- The scheduler takes the insertion that was handed over first, as an event of its own (R165, R96); so the insertions of two edges
reach it in the order of the edges (R160). The reports that waited behind it follow its own (R166). -/
def insertNext (s : State) : State :=
  match s.owed.insertions with
  | [] => s
  | h :: rest => ((s.withOwed { s.owed with insertions := rest }).insertReflex h.action).queueReports (h.behind.map NotSent.report)

/-- The insertions handed over and not yet taken are taken, oldest first (R160, R165). -/
def insertHandedOver (s : State) : State := s.owed.insertions.foldl (fun s _ => s.insertNext) s

/-- A LOCAL reflex hands the scheduler an insertion, whose serial is taken whatever the result: taken at once, after those that wait,
or left to be taken later in the tick (R165, log 17). -/
def reflexLocal (s : State) (atOnce : Bool) (x : ReflexEntry) (stamp : Time) : State :=
  let s' := s.takeSerial.withOwed { s.owed with
    insertions := s.owed.insertions ++ [{ action := s.reflexAction x stamp, behind := [] }] }
  if atOnce then s'.insertHandedOver else s'

/-- A reflex entry acts on an edge if it is enabled and names the edge's input and direction (R162). -/
def reflex (s : State) (earlier : Nat) (atOnce : Bool) (n : Fin 16) (input : Fin 8) (edge : EdgeDir) (stamp : Time) : State :=
  let x := s.config.reflexes[n]
  if x.enabled && x.input = input && x.edge = edge then
    match x.effect with
    | .publish => s.publish earlier n x stamp
    | .post => s.reflexPost earlier n x stamp
    | .toSelf => s.reflexLocal atOnce x stamp
  else s

/-- The reflex table from entry 0 to entry 15, each entry seeing what the one before it left (R162). -/
def runReflexes (s : State) (atOnce : Bool) (input : Fin 8) (edge : EdgeDir) (stamp : Time) : State :=
  let earlier := s.owed.insertions.length
  (List.finRange 16).foldl (fun s n => s.reflex earlier atOnce n input edge stamp) s

/-- What a qualified edge does: a record when the mode selects it, and its reflexes in MEMBER with a cluster stamp (R153,
R162). -/
def takeEdge (s : State) (atOnce : Bool) (input : Fin 8) (edge : EdgeDir) (first : SampleRecord) : State :=
  if selects (s.config.inputs[input]).mode edge then
    let (stamp, base) := s.edgeStamp first
    let s' := (s.enterLog (s.edgeRecord input edge stamp base)).1
    if s.member.state = .member && base = .clusterTime then s'.runReflexes atOnce input edge stamp else s'
  else s

/-- An input whose run count has reached its filter length is qualified at its new level (R150). -/
def qualify (s : State) (atOnce : Bool) (input : Fin 8) : State :=
  match s.cap.filters with
  | none => s
  | some filters =>
    let f := filters[input]
    match f.first with
    | none => s
    | some first =>
      if (s.config.inputs[input]).filter ≤ f.run then
        let level := !f.level
        let s' := s.withCap { s.cap with filters := some (filters.set input { level := level, run := 0, first := none }) }
        s'.takeEdge atOnce input (if level then .rise else .fall) first
      else s

/-! ### The tick (R36, R39, R40, R45, R125, R150, R171, R172) -/

/-- A current command that has waited sixteen ticks is executed in the sixteenth (R172). -/
def runDue (s : State) : State :=
  match s.port.work with
  | .current c ticks => if Config.executionTicks ≤ ticks then s.run c else s
  | .idle | .refused _ => s

/-- The firing that a tick owes (R104). -/
def fireOwed (s : State) : State :=
  match s.owed.fireFrom with
  | none => s
  | some c => if s.member.state = .member then s.fireDue c else s

/-- A boundary is owed and occurs: the station is JOINING or MEMBER (R42, R43). -/
def meetsBoundary (s : State) : Bool := s.owed.boundary && (s.member.state = .joining || s.member.state = .member)

/-- The boundary that a tick owes (R42). -/
def boundaryOwed (s : State) (turn : LineTurn) : State := if s.meetsBoundary then s.boundary turn else s

/-- The boundary that a tick owes, its verdict left to be taken later in the tick (R42, R66). -/
def evaluationOwed (s : State) (turn : LineTurn) : State := if s.meetsBoundary then s.evaluation turn else s

/-- The founding that a tick owes (R80). -/
def foundOwed (s : State) : State := if s.windowExpired then s.found else s

/-- What the last tick owes and no command has taken is taken before the next tick, in this order: insertions handed over, what the
exchange unit has handed on, the verdict of an evaluation, pulse ends, firing, boundary, qualified edges, founding, the command in its
sixteenth tick (log 1). -/
def settle (s : State) : State :=
  let s1 := (List.finRange 8).foldl (fun s l => s.endPulse l) s.insertHandedOver.takeAllHandedOn.takeHandedVerdict
  let s2 := s1.fireOwed.boundaryOwed .first
  let s3 := (List.finRange 8).foldl (fun s i => s.qualify true i) s2
  s3.foundOwed.runDue

end State

/-- The tick of the cluster clock while valid: an ordinary tick, or an adjustment tick that works off one tick of the slew
remainder (R39, R40). -/
def ClockUnit.advance (c : ClockUnit) (unit : Nat) (time : Time) : ClockUnit :=
  if c.slew ≠ 0 && c.spacing + 1 = unit then
    if 0 < c.slew then { c with cluster := some (time + 2), slew := c.slew - 1, spacing := 1 }
    else { c with slew := c.slew + 1, spacing := 0 }
  else { c with cluster := some (time + 1), spacing := (c.spacing + 1) % unit }

namespace State

/-- The clock unit at a tick (R36, R39, R45). -/
def tickClock (s : State) : State :=
  let c := { s.clock with ticks := s.clock.ticks + 1, listen := s.clock.listen.map (· + 1) }
  s.withClock (match c.cluster with
    | none => c
    | some t => ClockUnit.advance c s.spacingUnit t)

end State

/-- A pending trailing edge at a tick: reached when the advance passes its end time, or when it is overdue (R125). -/
def OutLine.ticked (line : OutLine) (c c' : Time) : OutLine :=
  match line with
  | .released => .released
  | .driven high none => .driven high none
  | .driven high (some e) =>
    .driven high (some { e with reached := e.reached || e.overdue || (isAfter e.endTime c && !isAfter e.endTime c') })

namespace State

/-- The output unit and the scheduler see the advance from `c` in MEMBER (R104, R125). -/
def tickMember (s : State) (c : Time) : State :=
  if s.member.state = .member then
    (s.withOut { lines := mapLines (fun _ l => OutLine.ticked l c s.now) s.out.lines }).withOwed
      { s.owed with fireFrom := if s.now = c then none else some c }
  else s

/-- A round boundary is owed when the advance from `c` changed the round number (R42). -/
def tickRound (s : State) (c : Time) : State :=
  s.withOwed { s.owed with boundary := roundOf s.config.k c ≠ roundOf s.config.k s.now }

/-- One sample of an input (R150). -/
def sampled (f : InputFilter) (level : Bool) (now : SampleRecord) : InputFilter :=
  if level = f.level then { f with run := 0, first := none }
  else if f.run = 0 then { f with run := 1, first := some now }
  else { f with run := f.run + 1 }

/-- The inputs are sampled where the filter runs, at the values offered at this tick (R149, R150). -/
def tickInputs (s : State) (levels : BitVec 8) : State :=
  let now : SampleRecord := { ticks := s.clock.ticks, cluster := s.clock.cluster }
  let sample (filters : Vector InputFilter 8) : Vector InputFilter 8 :=
    Vector.ofFn fun i => sampled filters[i] (levels.getLsbD i) now
  (s.withPins levels).withCap { s.cap with filters := s.cap.filters.map sample }

/-- The service port at a tick: the response of a refused envelope is formed, and the current command ages (R171, R172). -/
def tickPort (s : State) : State :=
  match s.port.work with
  | .idle => s
  | .refused r => s.respond r
  | .current c ticks => s.withPort { s.port with work := .current c (ticks + 1) }

/-- The tick itself, when nothing of the last one is owed. -/
def tickNow (s : State) (levels : BitVec 8) : State :=
  let s1 := s.tickClock
  let s2 := match s.clock.cluster with
    | none => s1
    | some c => (s1.tickRound c).tickMember c
  (s2.tickInputs levels).tickPort

end State

/-! ### The rows -/

/-- HARDWARE_RESET (R93). The levels on the input pins and the commands that wait belong to the outside (log 14). -/
def execHardwareReset (s : State) : Result := .next ((State.reset.withPins s.pins).withPending s.pending)

/-- TICK (R36). -/
def execTick (levels : BitVec 8) (s : State) : Result := .next (s.settle.tickNow levels)

/-- ROUND_BOUNDARY (R42, R43), or the verdict of an evaluation of the tick (R66, R73). -/
def execRoundBoundary (event : BoundaryEvent) (s : State) : Result :=
  match event with
  | .whole turn => .next (s.boundaryOwed turn)
  | .evaluation turn => .next (s.evaluationOwed turn)
  | .verdict => .next s.takeHandedVerdict

/-- LISTEN_WINDOW_EXPIRY (R80). -/
def execListenWindowExpiry (s : State) : Result := .next s.foundOwed

/-- FIRING (R104). -/
def execFiring (s : State) : Result := .next s.fireOwed

/-- PULSE_END (R125, R126). -/
def execPulseEnd (line : Fin 8) (s : State) : Result := .next (s.endPulse line)

/-- EDGE_QUALIFIED (R150, R153, R162), or the scheduler's insertion for a LOCAL reflex of an earlier edge of the tick (R165). -/
def execEdgeQualified (event : EdgeEvent) (s : State) : Result :=
  match event with
  | .whole input => .next (s.qualify true input)
  | .handOver input => .next (s.qualify false input)
  | .insertion => .next s.insertNext

end Sys2Proof.Machine
end

