-- ==== Sys2Proof/Machine/Transactions.lean ====
section
/-! DEFINITION. The transactions of the service port (R168–R171): SEL falls and rises. -/

namespace Sys2Proof.Machine

namespace State

/-- SEL falls (R169, R170): a busy transaction shifts out BUSY and leaves the pending response; otherwise the pending
response goes out, once. -/
def beginTransaction (s : State) : State :=
  if s.busy then
    s.withPort { s.port with transaction := some { busy := true, sdo := Response.busy.bytes } }
  else
    s.withPort { s.port with
      transaction := some { busy := false, sdo := (s.port.response.map Response.bytes).getD [] }, response := none }

/-- SEL rises (R170, R171): the command of a busy transaction is discarded; otherwise the received bytes are judged, and
the busy flag is set. -/
def endTransaction (s : State) (t : Transaction) (received : List Byte) : State :=
  if t.busy then s.withPort { s.port with transaction := none }
  else
    match judgeEnvelope received with
    | .error r => s.withPort { s.port with transaction := none, work := .refused r }
    | .ok c => s.withPort { s.port with transaction := none, work := .current c 0 }

end State

/-- TRANSACTION_BEGIN (R168–R170). -/
def execTransactionBegin (s : State) : Result :=
  match s.port.transaction with
  | none => .next s.beginTransaction
  | some _ => .next s

/-- TRANSACTION_END (R168, R170, R171): the levels sampled on SDI make the received bytes. A transaction that a reset abandoned
is over, and no command is taken when SEL rises (R184). -/
def execTransactionEnd (bits cut : List Bool) (s : State) : Result :=
  match s.port.transaction with
  | none => .next s
  | some t => .next (s.endTransaction t (receivedBytes (bits ++ cut)))

end Sys2Proof.Machine
end

