-- ==== Sys2Proof/Machine/Dispatch.lean ====
section
/-! DEFINITION. One arm per command: the meaning of each row of the table. -/

namespace Sys2Proof.Machine

def exec (i : Instr) (s : State) : Host.Outcome State Fault Refusal :=
  match i with
  | .hardwareReset => Sys2Proof.Machine.execHardwareReset s
  | .tick levels => Sys2Proof.Machine.execTick levels s
  | .roundBoundary event => Sys2Proof.Machine.execRoundBoundary event s
  | .listenWindowExpiry => Sys2Proof.Machine.execListenWindowExpiry s
  | .firing => Sys2Proof.Machine.execFiring s
  | .pulseEnd line => Sys2Proof.Machine.execPulseEnd line s
  | .edgeQualified event => Sys2Proof.Machine.execEdgeQualified event s
  | .lineIdle => Sys2Proof.Machine.execLineIdle s
  | .idleSlot => Sys2Proof.Machine.execIdleSlot s
  | .startOfFrame => Sys2Proof.Machine.execStartOfFrame s
  | .frameTruncated => Sys2Proof.Machine.execFrameTruncated s
  | .frameCompletion event => Sys2Proof.Machine.execFrameCompletion event s
  | .transmissionSuccess => Sys2Proof.Machine.execTransmissionSuccess s
  | .readbackMismatch bit => Sys2Proof.Machine.execReadbackMismatch bit s
  | .lineStuck => Sys2Proof.Machine.execLineStuck s
  | .lineReleased => Sys2Proof.Machine.execLineReleased s
  | .transactionBegin => Sys2Proof.Machine.execTransactionBegin s
  | .transactionEnd bits cut => Sys2Proof.Machine.execTransactionEnd bits cut s
  | .nop => Sys2Proof.Machine.execNop s
  | .status => Sys2Proof.Machine.execStatus s
  | .configure => Sys2Proof.Machine.execConfigure s
  | .start => Sys2Proof.Machine.execStart s
  | .stop => Sys2Proof.Machine.execStop s
  | .post => Sys2Proof.Machine.execPost s
  | .amend => Sys2Proof.Machine.execAmend s
  | .cancel => Sys2Proof.Machine.execCancel s
  | .find => Sys2Proof.Machine.execFind s
  | .readLog => Sys2Proof.Machine.execReadLog s
  | .readReports => Sys2Proof.Machine.execReadReports s
  | .readPeers => Sys2Proof.Machine.execReadPeers s
  | .snapshot => Sys2Proof.Machine.execSnapshot s
  | .drive => Sys2Proof.Machine.execDrive s
  | .stuckRunEnd => Sys2Proof.Machine.execStuckRunEnd s
  | .rejectedStartEdge => Sys2Proof.Machine.execRejectedStartEdge s

end Sys2Proof.Machine
end

