-- ==== Sys2Proof/Safety.lean ====
section
/-! DEFINITION. What holds of the station in every run, in the terms that claims use: one invariant per kind of state, each
from the rule that states it, and the quiet states in which the last tick owes nothing. -/

namespace Sys2Proof.Machine

/-- A report is an OVERFLOW report. -/
def Report.isOverflow (r : Report) : Bool :=
  match r.detail with
  | .overflow _ => true
  | _ => false

/-- A report is a LINE_ERRORS report. -/
def Report.isLineErrors (r : Report) : Bool :=
  match r.detail with
  | .lineErrors _ => true
  | _ => false

/-- A report is a STATE report. -/
def ReportDetail.isState (d : ReportDetail) : Bool :=
  match d with
  | .state _ _ _ => true
  | _ => false

/-- The row that executes a command (R172). -/
def Command.row : Command → Instr
  | .nop => .nop | .status => .status | .configure _ => .configure | .start => .start | .stop => .stop | .post _ _ => .post
  | .amend _ _ _ _ => .amend | .cancel _ _ _ => .cancel | .find _ _ => .find | .readLog _ => .readLog
  | .readReports _ => .readReports | .readPeers => .readPeers | .snapshot => .snapshot | .drive _ _ => .drive

/-- A payload as a queued frame carries it: an ACTION holds a width exactly when its kind is PULSE (R4). -/
def Payload.wellFormed : Payload → Bool
  | .action f => f.width.isSome = (f.kind = .pulse)
  | .beacon _ _ | .amend _ _ _ | .cancel _ _ | .event _ _ _ _ _ | .refuse _ _ _ => true

/-- A payload as its receivers take it: a BEACON carries the sender time of its start edge (R11). -/
def Payload.sentAt (time : Time) : Payload → Payload
  | .beacon _ body => .beacon (some time) body
  | p => p

/-- A line record holds a pending trailing edge (R119). -/
def OutLine.hasEdge (line : OutLine) : Bool :=
  match line with
  | .driven _ (some _) => true
  | .driven _ none | .released => false

/-- What a placement does (R95): the entry stands behind every entry of its own due time and ahead of every entry with a later one, due
times counted forward from `base`. -/
abbrev PlacesInOrder : Prop :=
  ∀ (base : Time) (e : Entry) (ahead behind : List Entry), (∀ x ∈ ahead, (x.due - base).toNat ≤ (e.due - base).toNat) →
    (∀ x ∈ behind.head?, (e.due - base).toNat < (x.due - base).toNat) → placeIn base e (ahead ++ behind) = ahead ++ e :: behind

/-- The sets of an evaluation (R57): the fresh records of MEMBER senders, in order of station number, in bound or out of bound by the
magnitude of their offset; and the offsets of the in-bound ones. The own record is no peer's. -/
abbrev SortsByBound : Prop :=
  ∀ (bound : Nat) (peers : Vector PeerRecord 16),
    let offset (i : Fin 16) : Option Int :=
      if (peers[i]).fresh = true ∧ (peers[i]).state ≠ .self ∧ (peers[i]).beacon.any (·.body.member) = true then
        (peers[i]).beacon.map (·.offset.toInt)
      else none
    stationsWhere peers (·.inBound bound) = (List.finRange 16).filter (fun i => (offset i).any fun x => x.natAbs ≤ bound)
    ∧ stationsWhere peers (·.outOfBound bound) = (List.finRange 16).filter (fun i => (offset i).any fun x => bound < x.natAbs)
    ∧ inBoundOffsets bound peers = ((List.finRange 16).filterMap offset).filter (fun x => x.natAbs ≤ bound)

namespace State

/-- R181: the report queue never holds more than 32 reports, and an OVERFLOW report, when present, is the last. -/
abbrev ReportsOk (s : State) : Prop :=
  s.port.reports.length ≤ 32 ∧ ∀ r ∈ s.port.reports.dropLast, r.isOverflow = false

/-- R18, R29: at most 8 records, at most one BEACON, at most one in transmission, attempt counts of 0–7, and the void mark
only on a record in transmission. -/
abbrev TransmitOk (s : State) : Prop :=
  s.cont.queue.length ≤ 8
  ∧ (s.cont.queue.filter (fun r => r.kind = .beacon)).length ≤ 1
  ∧ (s.cont.queue.filter (fun r => r.inTransmission)).length ≤ 1
  ∧ ∀ r ∈ s.cont.queue, r.attempts ≤ 7 ∧ (r.isVoid = true → r.inTransmission = true)

/-- Each log sequence follows the one before it by one, modulo 65536 (R155). -/
def consecutive : List LogRecord → Bool
  | [] => true
  | [_] => true
  | a :: b :: rest => a.sequence + 1 = b.sequence && consecutive (b :: rest)

/-- R155: at most 64 records, consecutive log sequences, and the counter one after the newest. -/
abbrev LogOk (s : State) : Prop :=
  s.cap.log.length ≤ 64 ∧ consecutive s.cap.log = true
  ∧ s.cap.log.getLast?.all (fun r => r.sequence + 1 = s.cap.logCounter) = true

/-- R183: ATTN is asserted exactly while its condition holds. -/
abbrev AttnOk (s : State) : Prop := s.port.attn = s.attnDue

/-- The station is LISTEN, JOINING or MEMBER: the part uses the line (R6, R149). -/
def active (s : State) : Bool :=
  match s.member.state with
  | .listen | .joining | .member => true
  | .unconfigured | .ready | .stopped => false

/-- What the station state fixes (R37, R45, R77, R116, R149): cluster time is valid in JOINING and MEMBER, the listen window
runs in LISTEN, the filters run in LISTEN, JOINING and MEMBER, the action queue is empty outside MEMBER, a READY station
holds a block, and the fields are handed out from the first START on. What a tick owes belongs to states with cluster
time. -/
abbrev PhaseOk (s : State) : Prop :=
  (s.clock.cluster.isSome = true ↔ s.member.state = .joining ∨ s.member.state = .member)
  ∧ (s.clock.listen.isSome = true ↔ s.member.state = .listen)
  ∧ (s.cap.filters.isSome = true ↔ s.active = true)
  ∧ (s.member.state ≠ .member → s.sched.queue = [])
  ∧ (s.member.state = .ready → s.port.block.isSome = true)
  ∧ (s.cfg.isSome = true ↔ s.active = true ∨ s.member.state = .stopped)
  ∧ s.member.number = s.cfg.map (·.number)
  ∧ (s.owed.boundary = true → s.clock.cluster.isSome = true)
  ∧ (s.owed.fireFrom.isSome = true → s.member.state = .member)

/-- R120, R124: a line outside the output enable mask is released, and a pending trailing edge exists only in MEMBER. -/
abbrev OutputsOk (s : State) : Prop :=
  ∀ i : Fin 8,
    (s.enabled i = false → s.out.lines[i] = .released)
    ∧ (s.member.state ≠ .member → (s.out.lines[i]).hasEdge = false)

/-- R52: from the first START the record of the own number is the only one in state SELF, and before it none is; the SELF
record is not fresh, has missed 0 and holds no beacon fields; a fresh record holds beacon fields; a missed count is 0–15. -/
abbrev PeersOk (s : State) : Prop :=
  ∀ i : Fin 16,
    ((s.sync.peers[i]).state = .self ↔ s.member.number = some i)
    ∧ ((s.sync.peers[i]).state = .self → s.sync.peers[i] = { PeerRecord.cleared with state := .self })
    ∧ ((s.sync.peers[i]).fresh = true → (s.sync.peers[i]).beacon.isSome = true)
    ∧ (s.sync.peers[i]).missed ≤ 15

/-- The periods an entry holds are in range (R94). -/
def periodsOk (e : Entry) : Bool :=
  e.rep.all (fun r => periodOk r.period) && e.pendingRep.all (fun r => periodOk r.period) && (e.rep.isSome || e.pendingRep.isNone)

/-- Due times that are counted forward from `base` are in order (R95). -/
abbrev inDueOrder (base : Time) (queue : List Entry) : Prop :=
  queue.Pairwise fun a b => dueKey base a.due ≤ dueKey base b.due

/-- The sequence order (R95): of two entries of one due time the one ahead was placed earlier, so that its insertion sequence, counted
back from the counter because that wraps, lies further behind; and `room` further placements bring the wrap to no entry. -/
abbrev SequencesOk (room : Nat) (s : State) : Prop :=
  (s.sched.queue.Pairwise fun a b =>
    a.due = b.due → (s.sched.counter - b.sequence).toNat < (s.sched.counter - a.sequence).toNat)
  ∧ ∀ e ∈ s.sched.queue, (s.sched.counter - e.sequence).toNat + room < 2 ^ 32

/-- R94, R95: at most 32 entries, no two with one id, in order of due time, each due after now or about to be fired by this
tick, its periods in range. While a firing is owed, cluster time has just advanced by 1 or 2. -/
abbrev ActionsOk (s : State) : Prop :=
  s.sched.queue.length ≤ 32
  ∧ (s.sched.queue.map (·.id)).Nodup
  ∧ inDueOrder s.orderBase s.sched.queue
  ∧ (∀ e ∈ s.sched.queue, 1 ≤ dueKey s.orderBase e.due ∧ dueKey s.orderBase e.due < 2 ^ 31 + 2 ∧ periodsOk e = true)
  ∧ s.owed.fireFrom.all (fun c => s.now = c + 1 || s.now = c + 2) = true

/-- A configuration block held or taken is in range (R178). -/
abbrev ConfigOk (s : State) : Prop := s.port.block.all (·.inRange) = true ∧ s.cfg.all (·.inRange) = true

/-- The position of cluster time in its round (R40). -/
def position (s : State) : Nat := s.now.toNat % 2 ^ s.config.k

/-- R40, R41: while a remainder is left, the spacing counter stands below the spacing unit s, the position has been reached
by j adjustments (js for a positive remainder, j(s − 1) for a negative one, and the counter), and j and the remainder come
to at most 255. -/
abbrev slewOnTrack (s : State) : Prop :=
  s.clock.spacing < s.spacingUnit
  ∧ ∃ j : Fin 256, j.val + s.clock.slew.natAbs ≤ 255
    ∧ s.position = j.val * (if 0 < s.clock.slew then s.spacingUnit else s.spacingUnit - 1) + s.clock.spacing

/-- R41: at every round boundary the slew remaining from the previous boundary is zero, and the boundary lies at position 0;
between boundaries the remainder is on track to be worked off. -/
abbrev SlewOk (s : State) : Prop :=
  (s.clock.cluster = none → s.clock.slew = 0 ∧ s.owed.boundary = false)
  ∧ (s.clock.slew ≠ 0 → s.slewOnTrack)
  ∧ (s.owed.boundary = true → s.clock.slew = 0 ∧ s.position = 0)

/-- The reports that a boundary in the state `s` makes, in their order, with the peer table it leaves and the reports of a state
change: a PEER report for each changed state in order of station number (R60), an ALONE report for a change of the flag in MEMBER
(R61), those of the change (R75), and a LINE_ERRORS report in its turn when errors were counted (R10, log 7). -/
def boundaryReports (s : State) (turn : LineTurn) (after : Vector PeerRecord 16) (change : List Report) : List Report :=
  let peers := (List.finRange 16).filterMap fun i =>
    if (s.sync.peers[i]).state = (after[i]).state then none
    else some (s.stamped (.peer i (s.sync.peers[i]).state (after[i]).state ((s.sync.peers[i]).beacon.map (·.offset))))
  let flag := after.toList.all fun r => r.state ≠ .synced
  let alone := if s.member.state = .member ∧ s.member.alone ≠ flag then [s.stamped (.alone flag)] else []
  let errors (place : LineTurn) : List Report :=
    if place = turn ∧ 0 < s.line.errors then [{ detail := .lineErrors s.line.errors, stamp := s.now, unsynced := false }] else []
  errors .first ++ peers ++ alone ++ errors .middle ++ change ++ errors .last

/-- The reports that a departure into STOPPED makes, in their order (R75, R88–R91, R116): the LINE_ERRORS report of a boundary taken
before it (R43), the NOT_SENT reports that wait (log 17), the STATE report, and a FLUSHED report if the action queue held an entry; in LISTEN
the STATE report alone. -/
def stoppedReports (s : State) (cause : Cause) : List Report :=
  let told : Report := { detail := .state s.member.state .stopped cause, stamp := s.clock.ticks, unsynced := true }
  let errors : List Report :=
    if (s.owed.verdict.any fun h => h.turn = .last) = true ∧ 0 < s.line.errors then
      [{ detail := .lineErrors s.line.errors, stamp := s.now, unsynced := false }]
    else []
  let waiting : List Report := s.owed.insertions.flatMap fun h => h.behind.map fun r =>
    { detail := .notSent r.kind (.reflex r.entry none), stamp := r.stamp, unsynced := r.unsynced }
  let flushed : List Report :=
    if s.sched.queue = [] then []
    else [{ detail := .flushed s.sched.queue.length cause, stamp := s.clock.ticks, unsynced := true }]
  if s.member.state = .listen then [told] else errors ++ waiting ++ [told] ++ flushed

/-- The samples of a row FRAME_COMPLETION, whichever way the claim of a frame is taken. -/
abbrev samplesOf (event : FrameEvent) (samples : List Bool) : Prop := event = .whole samples ∨ event = .handOver samples

/-- What a repeating action that fires at its insertion into `u` makes of it (R100, R102, R105–R108): LATE with the occurrences skipped,
when it is late; its line; FIRED, when it notifies; and what the step leaves of it placed with a fresh insertion sequence, or, when that
is due now, fired in its turn with no LATE. `StepAndSkip` says what a step leaves. -/
abbrev FiresRepeating (u t : State) (e : Entry) : Prop :=
  let told (v : State) (x : Entry) : State :=
    let line := (v.out.lines[x.line]).fired (u.defaultHigh x.line) u.now x.kind (x.width.getD 0) x.id x.due
    let v' := v.withOut { lines := v.out.lines.set x.line line }
    if x.notify then v'.report (.fired x.id x.line x.kind x.due (stepEntry x u.now).2.2) else v'
  let placed (v : State) (x : Entry) (number : BitVec 32) : State := v.withSched
    { queue := placeIn u.orderBase { x with sequence := number } u.sched.queue, counter := number }
  let counter := u.sched.counter
  let skipped := (stepEntry e u.now).2.1
  let fired := told (if e.due = u.now then u else u.report (.late e.id (u.now - e.due) (min skipped 65535))) e
  ((stepEntry e u.now).1 = none → t = fired)
  ∧ ∀ next, (stepEntry e u.now).1 = some next →
    (next.due ≠ u.now → t = placed fired next (counter + 1))
    ∧ (next.due = u.now →
        ((stepEntry next u.now).1 = none → t = (told fired next).withSched { u.sched with counter := counter + 1 })
        ∧ ∀ last, (stepEntry next u.now).1 = some last → t = placed (told fired next) last (counter + 2))

/-- What an insertion into the state `u` makes of it (R96–R103, in MEMBER): the checks in their order, a replaced entry removed
(R98), the action placed (R95), dropped as late (R101), or fired at once (R100, R102, R105), with LATE before FIRED, a repeating one
stepped and placed again (R106–R108). `refused` is what the source makes of a refusal with a reason coded as in REFUSE (R185). -/
abbrev Inserts (u t : State) (a : ActionFields) (origin : Station) (source : Source) (refused : State → Byte → State) : Prop :=
  let id : ActionId := { origin := origin, serial := a.serial }
  let others := u.sched.queue.filter (fun x => x.id ≠ id)
  let free := u.withSched { u.sched with queue := others }
  let good := (∀ r, a.rep = some r → 16 ≤ r.period.toNat ∧ r.period.toNat < 2 ^ 31) ∧ (a.kind = .pulse → a.width.getD 0 ≠ 0)
  let room := (∃ x ∈ u.sched.queue, x.id = id) ∨ u.sched.queue.length < 32
  (u.enabled a.line = false → t = refused u 2)
  ∧ (u.enabled a.line = true → ¬ good → t = refused u 3)
  ∧ (u.enabled a.line = true → good → ¬ room → t = refused u 1)
  ∧ (u.enabled a.line = true → good → room →
      (isAfter a.due u.now = true → t = u.withSched
        { queue := placeIn u.orderBase
            { id := id, due := a.due, line := a.line, kind := a.kind, width := a.width, rep := a.rep, pendingRep := none,
              notify := a.notify, source := source, sequence := u.sched.counter + 1 } others
          counter := u.sched.counter + 1 })
      ∧ (isBefore a.due u.now = true → u.config.latePolicy = .drop →
          t = refused (free.report (.dropped id (u.now - a.due))) 4)
      ∧ (a.rep = none → a.due = u.now ∨ (isBefore a.due u.now = true ∧ u.config.latePolicy = .fire) →
          let told := if a.due = u.now then free else free.report (.late id (u.now - a.due) 0)
          let line := (u.out.lines[a.line]).fired (u.defaultHigh a.line) u.now a.kind (a.width.getD 0) id a.due
          let fired := told.withOut { lines := u.out.lines.set a.line line }
          t = if a.notify then fired.report (.fired id a.line a.kind a.due none) else fired)
      ∧ (a.rep.isSome = true → a.due = u.now ∨ (isBefore a.due u.now = true ∧ u.config.latePolicy = .fire) →
          free.FiresRepeating t
            { id := id, due := a.due, line := a.line, kind := a.kind, width := a.width, rep := a.rep, pendingRep := none,
              notify := a.notify, source := source, sequence := 0 }))

/-- What the arrival of a record at the log of `u` makes of it (R155, R156): the record is entered; at a full log it is discarded under
STOP, or entered in place of the oldest under WRAP, and the first loss of an episode queues one LOG_OVERFLOW report. -/
abbrev Logs (u t : State) (body : LogBody) : Prop :=
  let record : LogRecord := { sequence := u.cap.logCounter, body := body }
  let after (cap : CaptureUnit) (reports : List Report) : State :=
    (u.withCap cap).withPort { u.port with reports := reports, attn := t.port.attn }
  let overflowed (policy : LogPolicy) (discarded : Option Half) : List Report :=
    if u.cap.episode then u.port.reports
    else arrive u.port.reports { detail := .logOverflow policy discarded, stamp := u.stampTime, unsynced := u.unsynced }
  (u.cap.log.length < 64 →
      t = after { u.cap with log := u.cap.log ++ [record], logCounter := u.cap.logCounter + 1 } u.port.reports)
  ∧ (64 ≤ u.cap.log.length → u.config.logPolicy = .stop → t = after { u.cap with episode := true } (overflowed .stop none))
  ∧ ∀ oldest rest, u.cap.log = oldest :: rest → 64 ≤ u.cap.log.length → u.config.logPolicy = .wrap →
      t = after { u.cap with log := rest ++ [record], logCounter := u.cap.logCounter + 1, episode := true }
        (overflowed .wrap (some oldest.sequence))

/-- Nothing is left of the last tick: settling changes nothing. -/
abbrev Quiet (s : State) : Prop := s.settle = s

/-- The state after a row; the state itself if the row stopped. -/
def afterRow (s : State) (c : Instr) : State :=
  match exec c s with
  | .next t => t
  | .fault _ | .refused _ => s

/-- The rows of the events that the last tick may have left over, in the order of `settle` (log 1): the insertions handed over, what the
exchange unit has handed on (a claim may make one request), the verdict of an evaluation, the pulse ends, the firing, the boundary, the
qualified edges, the founding, the command in its sixteenth tick. -/
def leftRows (s : State) : List Instr :=
  s.owed.insertions.map (fun _ => .edgeQualified .insertion)
  ++ (List.range (2 * s.owed.exchange.length)).map (fun _ => .frameCompletion .next) ++ [.roundBoundary .verdict]
  ++ (List.finRange 8).map .pulseEnd ++ [.firing, .roundBoundary (.whole .first)]
  ++ (List.finRange 8).map (fun i => .edgeQualified (.whole i)) ++ [.listenWindowExpiry]
  ++ (match s.port.work with
    | .current c n => if n = Config.executionTicks then [c.row] else []
    | .idle | .refused _ => [])

/-- The state in which nothing of the last tick is left: after the rows of what was. -/
def afterLeft (s : State) : State := s.leftRows.foldl afterRow s

/-- The ticks that a command held has waited (R172). -/
def waited (s : State) : Option Nat :=
  match s.port.work with
  | .current _ n => some n
  | .idle | .refused _ => none

/-- A command held has waited at most sixteen ticks (R172). -/
abbrev WaitOk (s : State) : Prop := ∀ n ∈ s.waited, n ≤ Config.executionTicks

end State

end Sys2Proof.Machine
end

