-- ==== Sys2Proof/Certificates/Slice0/Obligations.lean ====
section
/-! DEFINITION. The statements for the provers. Each says what a command of the block does, when it completes and what it leaves
as it is, or an invariant that every step keeps. `t = s.withPort t.port` says that only the service port may differ; the other
setters likewise. -/

open Sys2Proof Sys2Proof.Machine

/-! ### The queue of commands -/

/-- A step executes the command at the front of the queue on the state with the queue's rest. -/
def Obligations.StepRunsFrontCommand : Prop :=
  ∀ (s : State) (c : Instr) (rest : List Instr), s.pending = c :: rest → step s = exec c (s.withPending rest)

/-- With an empty queue the block idles (the model's choice, log 9); every command answers a next state, and no command touches
the queue: that HARDWARE_RESET keeps it is the model's choice too (log 14). -/
def Obligations.QueueDiscipline : Prop :=
  (∀ s : State, s.pending = [] → step s = .next s)
  ∧ ∀ (c : Instr) (s : State), ∃ t, exec c s = .next t ∧ t.pending = s.pending

/-- A row whose event has not come about changes nothing (the model's choice, log 2), the row of a command among them unless that
command is current and one to sixteen ticks have passed (log 5), and a rejected start edge within a character (log 10); a receiver in
OFF ignores the line (R6). -/
def Obligations.UnmetEventsChangeNothing : Prop :=
  ∀ s : State,
    (s.owed.boundary = false ∨ (s.member.state ≠ .joining ∧ s.member.state ≠ .member) →
        ∀ turn, exec (.roundBoundary (.whole turn)) s = .next s ∧ exec (.roundBoundary (.evaluation turn)) s = .next s)
    ∧ (s.owed.verdict = none → exec (.roundBoundary .verdict) s = .next s)
    ∧ (s.member.state ≠ .listen ∨ (∀ n, s.clock.listen = some n → n < s.listenWindow) → exec .listenWindowExpiry s = .next s)
    ∧ (s.owed.fireFrom = none ∨ s.member.state ≠ .member → exec .firing s = .next s)
    ∧ (∀ l : Fin 8, (∀ high e, s.out.lines[l] = .driven high (some e) → e.reached = false) → exec (.pulseEnd l) s = .next s)
    ∧ (∀ i : Fin 8, (∀ f, s.cap.filters = some f → (f[i]).first = none ∨ (f[i]).run < (s.config.inputs[i]).filter) →
        exec (.edgeQualified (.whole i)) s = .next s ∧ exec (.edgeQualified (.handOver i)) s = .next s)
    ∧ (s.owed.insertions = [] → exec (.edgeQualified .insertion) s = .next s)
    ∧ (s.owed.exchange = [] → exec (.frameCompletion .next) s = .next s)
    ∧ (s.cont.idle = false → exec .idleSlot s = .next s)
    ∧ (s.line.receiver = .off →
        exec .lineIdle s = .next s ∧ exec .startOfFrame s = .next s ∧ exec .frameTruncated s = .next s
        ∧ (∀ event samples, State.samplesOf event samples → exec (.frameCompletion event) s = .next s)
        ∧ exec .transmissionSuccess s = .next s
        ∧ (∀ bit, exec (.readbackMismatch bit) s = .next s) ∧ exec .lineStuck s = .next s ∧ exec .stuckRunEnd s = .next s
        ∧ exec .lineReleased s = .next s ∧ exec .rejectedStartEdge s = .next s)
    ∧ (s.cont.idle = true ∨ (s.line.receiver ≠ .seek ∧ s.line.receiver ≠ .wait) → exec .lineIdle s = .next s)
    ∧ (s.line.receiver ≠ .wait → exec .startOfFrame s = .next s)
    ∧ (s.line.receiver ≠ .receive ∨ (∀ f, s.line.frame = some f → f.bits ≠ []) → exec .frameTruncated s = .next s)
    ∧ (s.line.receiver ≠ .receive ∨ s.line.frame = none →
        ∀ event samples, State.samplesOf event samples → exec (.frameCompletion event) s = .next s)
    ∧ (s.line.receiver ≠ .send →
        exec .transmissionSuccess s = .next s ∧ ∀ bit, exec (.readbackMismatch bit) s = .next s)
    ∧ (∀ bit, (bitsOfFrame s.line.sending)[bit]? ≠ some true → exec (.readbackMismatch bit) s = .next s)
    ∧ (s.line.receiver = .send ∨ s.line.receiver = .stuck → exec .rejectedStartEdge s = .next s)
    ∧ (s.line.receiver = .receive → s.line.frame ≠ some { chars := [], bits := [false], gap := 0 } →
        (∀ f, s.line.frame = some f → f.bits ≠ []) → exec .rejectedStartEdge s = .next s)
    ∧ (s.line.receiver ≠ .stuck → exec .stuckRunEnd s = .next s)
    ∧ (s.line.receiver = .stuck → exec .lineStuck s = .next s)
    ∧ (s.line.muted = false ∨ (s.line.receiver ≠ .wait ∧ s.line.receiver ≠ .seek) → exec .lineReleased s = .next s)
    ∧ (s.port.transaction ≠ none → exec .transactionBegin s = .next s)
    ∧ (s.port.transaction = none → ∀ bits cut, exec (.transactionEnd bits cut) s = .next s)
    ∧ ∀ c : Command, (∀ (current : Command) (n : Nat), s.port.work = .current current n → current.row ≠ c.row ∨ n = 0 ∨ 16 < n) →
        exec c.row s = .next s

/-! ### Reset and the tick -/

/-- HARDWARE_RESET returns every block to its reset state (R72, R93 and the tables of the chapters); the pin levels stay, as
the model chose (log 14). -/
def Obligations.HardwareResetState : Prop :=
  ∀ s : State, ∃ t, exec .hardwareReset s = .next t
    ∧ t.member = { state := .unconfigured, alone := true, cause := none, number := none }
    ∧ t.line.receiver = .off ∧ t.line.sof = none ∧ t.line.frame = none ∧ t.line.sending = []
    ∧ t.line.errors = 0 ∧ t.line.muted = false
    ∧ t.cont = { queue := [], idle := false, slot := none, offered := none }
    ∧ t.clock = { ticks := 0, cluster := none, slew := 0, spacing := 0, listen := none }
    ∧ (∀ i : Fin 16, t.sync.peers[i] = { state := .absent, fresh := false, missed := 0, beacon := none })
    ∧ t.sync.splitCount = 0 ∧ t.sync.joinRounds = 0 ∧ t.sync.noFresh = 0
    ∧ t.sched = { queue := [], counter := 0 }
    ∧ (∀ i : Fin 8, t.out.lines[i] = .released)
    ∧ t.exch.windows = []
    ∧ t.cap = { filters := none, log := [], episode := false, logCounter := 0, eventCounter := 0, reflexSerial := 0x8000 }
    ∧ t.port = { transaction := none, response := some { command := 0, code := .ok, data := [] }, work := .idle,
                 block := none, reports := [], attn := false }
    ∧ t.cfg = none ∧ t.pins = s.pins

/-- R36: each tick adds 1 to the local tick count, in every state; hardware reset clears it; no other command changes it. -/
def Obligations.LocalTickCount : Prop :=
  (∀ (s : State) (levels : BitVec 8), ∃ t, exec (.tick levels) s = .next t ∧ t.clock.ticks = s.clock.ticks + 1)
  ∧ (∀ s : State, ∃ t, exec .hardwareReset s = .next t ∧ t.clock.ticks = 0)
  ∧ ∀ (c : Instr) (s t : State), (∀ levels, c ≠ .tick levels) → c ≠ .hardwareReset → exec c s = .next t →
      t.clock.ticks = s.clock.ticks

/-- R39, R40, R42, R45: the tick advances cluster time by 1, or by 2 or 0 at an adjustment tick, and finds whether the round
number changed; with no cluster time it only counts. What the last tick left over is taken first, each event as its own row would
take it, in the order that the model chose (log 1): the state `u`. -/
def Obligations.ClusterAdvance : Prop :=
  ∀ (s : State) (levels : BitVec 8), s.WaitOk →
    let u := s.afterLeft
    (u.clock.cluster = none → ∃ t, exec (.tick levels) s = .next t
      ∧ t.clock = { u.clock with ticks := u.clock.ticks + 1, listen := u.clock.listen.map (· + 1) }
      ∧ t.owed = u.owed ∧ t.out = u.out)
    ∧ ∀ c, u.clock.cluster = some c →
      let unit := 2 ^ (u.config.k - 8)
      let adjusts := u.clock.slew ≠ 0 ∧ u.clock.spacing + 1 = unit
      ∃ t, exec (.tick levels) s = .next t
        ∧ (¬ adjusts → t.clock = { u.clock with
            ticks := u.clock.ticks + 1, listen := u.clock.listen.map (· + 1), cluster := some (c + 1),
            spacing := (u.clock.spacing + 1) % unit })
        ∧ (adjusts → 0 < u.clock.slew → t.clock = { u.clock with
            ticks := u.clock.ticks + 1, listen := u.clock.listen.map (· + 1), cluster := some (c + 2),
            slew := u.clock.slew - 1, spacing := 1 })
        ∧ (adjusts → u.clock.slew < 0 → t.clock = { u.clock with
            ticks := u.clock.ticks + 1, listen := u.clock.listen.map (· + 1), cluster := some c,
            slew := u.clock.slew + 1, spacing := 0 })
        ∧ (t.owed.boundary = true ↔ c.toNat / 2 ^ u.config.k ≠ t.now.toNat / 2 ^ u.config.k)
        ∧ t.member = u.member ∧ t.line = u.line ∧ t.cont = u.cont ∧ t.sync = u.sync ∧ t.sched = u.sched ∧ t.exch = u.exch
        ∧ t.cfg = u.cfg

/-- R150, R171, R172: at a tick every input is sampled where the filter runs, the response of a refused envelope is formed and
the current command ages. What the last tick left over is taken first (log 1): the state `u`; a command in its sixteenth tick that
no row has executed is executed then (R172), and nothing handed to the scheduler (R136, R165), the membership controller (R66) or
the contention unit (R137) is left. -/
def Obligations.InputsAndPortAtTick : Prop :=
  ∀ (s : State) (levels : BitVec 8), s.WaitOk →
    let u := s.afterLeft
    ∃ t, exec (.tick levels) s = .next t
    ∧ t.pins = levels
    ∧ t.cap = { u.cap with filters := t.cap.filters }
    ∧ (u.cap.filters = none → t.cap.filters = none)
    ∧ (∀ f, u.cap.filters = some f → ∃ g, t.cap.filters = some g ∧ ∀ i : Fin 8,
        (levels.getLsbD i = (f[i]).level → g[i] = { level := (f[i]).level, run := 0, first := none })
        ∧ (levels.getLsbD i ≠ (f[i]).level → (f[i]).run = 0 →
            g[i] = { level := (f[i]).level, run := 1, first := some { ticks := t.clock.ticks, cluster := t.clock.cluster } })
        ∧ (levels.getLsbD i ≠ (f[i]).level → (f[i]).run ≠ 0 →
            g[i] = { level := (f[i]).level, run := (f[i]).run + 1, first := (f[i]).first }))
    ∧ (u.port.work = .idle → t.port = u.port)
    ∧ (∀ r, s.port.work = .refused r → t.port = { u.port with response := some r, work := .idle })
    ∧ (∀ c n, s.port.work = .current c n → n < 16 → t.port = { u.port with work := .current c (n + 1) })
    ∧ (∀ c, s.port.work = .current c 16 → t.port.work = .idle ∧ t.port.response.any (fun r => r.command = c.code) = true)
    ∧ t.owed.insertions = [] ∧ t.owed.verdict = none ∧ t.owed.exchange = []

/-! ### The round boundary -/

/-- R10: at a boundary a count of receive errors above 0 makes exactly one LINE_ERRORS report with the count, and the count is
cleared; a count of 0 makes none. Where the report stands among the others is the row's operand, and its stamp after a teardown is
the model's reading (log 7). -/
def Obligations.LineErrorsAtBoundary : Prop :=
  ∀ (s : State) (turn : LineTurn), s.owed.boundary = true → s.member.state = .joining ∨ s.member.state = .member →
    ∃ (t : State) (before after : List Report), exec (.roundBoundary (.whole turn)) s = .next t
      ∧ t.line.errors = 0 ∧ t.owed.boundary = false
      ∧ t.port.reports = (before
          ++ (if s.line.errors = 0 then [] else
            [({ detail := .lineErrors s.line.errors, stamp := s.now, unsynced := false } : Report)])
          ++ after).foldl arrive s.port.reports
      ∧ (∀ r ∈ before ++ after, r.isLineErrors = false)
      ∧ (turn = .first → before = []) ∧ (turn = .last → after = [])

/-- R58: the raw correction is the mean, rounded toward zero, of this station's 0 and the in-bound offsets, less one largest and
one smallest when there are three values or more; the applied correction is the raw one limited to the max step. R41, R58, R66:
at a boundary that hands over no departure, the applied correction becomes the slew remainder and the spacing counter is 0;
cluster time, the action queue, the output lines, the log and the configuration stay as they are. R57: which records are in bound and
which out of bound. -/
def Obligations.Correction : Prop :=
  SortsByBound
  ∧ (∀ offsets : List Int, offsets.length < 2 → rawCorrection offsets = offsets.sum.tdiv (offsets.length + 1))
  ∧ (∀ (offsets : List Int) (largest smallest : Int), 2 ≤ offsets.length →
      largest ∈ 0 :: offsets → (∀ x ∈ 0 :: offsets, x ≤ largest) →
      smallest ∈ 0 :: offsets → (∀ x ∈ 0 :: offsets, smallest ≤ x) →
      rawCorrection offsets = (offsets.sum - largest - smallest).tdiv (offsets.length - 1))
  ∧ (∀ (maxStep : Nat) (raw : Int),
      (raw.natAbs ≤ maxStep → appliedCorrection maxStep raw = raw)
      ∧ (maxStep < raw → appliedCorrection maxStep raw = maxStep)
      ∧ (raw < -(maxStep : Int) → appliedCorrection maxStep raw = -(maxStep : Int)))
  ∧ ∀ (s : State) (turn : LineTurn), s.owed.boundary = true → s.valid = true →
    s.member.state = .joining ∨ s.member.state = .member → s.verdict = .none ∨ s.verdict = .join →
    ∃ t, exec (.roundBoundary (.whole turn)) s = .next t
      ∧ t.clock = { s.clock with
          slew := appliedCorrection s.config.maxStep.toNat
            (rawCorrection (inBoundOffsets s.config.outlierBound.toNat s.sync.peers))
          spacing := 0 }
      ∧ t.line = { s.line with errors := 0 } ∧ t.owed = { s.owed with boundary := false, verdict := none }
      ∧ t.sched = s.sched ∧ t.out = s.out ∧ t.exch = s.exch ∧ t.cap = s.cap ∧ t.cfg = s.cfg ∧ t.pins = s.pins
      ∧ t.port = { s.port with reports := t.port.reports, attn := t.port.attn }

/-- R59, R61: the evaluation gives every record its state and missed count from its state, its fresh flag and its set, clears
fresh, keeps the beacon fields, and sets the alone flag. R10, R60, R61, R75, R83: its reports are one PEER report for each changed
state in order of station number, an ALONE report for a change in MEMBER, then the STATE report of a join, with the LINE_ERRORS
report where the row's operand says (log 7). -/
def Obligations.PeerTableUpdate : Prop :=
  ∀ (s : State) (turn : LineTurn), s.owed.boundary = true → s.member.state = .joining ∨ s.member.state = .member →
    s.verdict = .none ∨ s.verdict = .join → ∃ t, exec (.roundBoundary (.whole turn)) s = .next t
      ∧ (t.member.alone = true ↔ ∀ i : Fin 16, (t.sync.peers[i]).state ≠ .synced)
      ∧ (∀ i : Fin 16,
        let r := s.sync.peers[i]
        let r' := t.sync.peers[i]
        r'.fresh = false ∧ r'.beacon = r.beacon
        ∧ (r.state = .self → r'.state = .self ∧ r'.missed = r.missed)
        ∧ (r.state ≠ .self → r.fresh = true → ∀ b, r.beacon = some b → r'.missed = 0
            ∧ r'.state = if b.body.member = true ∧ b.offset.toInt.natAbs ≤ s.config.outlierBound.toNat then .synced else .heard)
        ∧ (r.fresh = false → r.state = .absent → r'.state = .absent ∧ r'.missed = r.missed)
        ∧ (r.fresh = false → r.state = .heard ∨ r.state = .synced → r'.missed = min (r.missed + 1) 15
            ∧ r'.state = if s.config.lostLimit ≤ r.missed + 1 then .lost else r.state)
        ∧ (r.fresh = false → r.state = .lost → r'.state = .lost ∧ r'.missed = min (r.missed + 1) 15))
      ∧ t.port.reports = (s.boundaryReports turn t.sync.peers
          (if s.verdict = .join then [s.stamped (.state .joining .member .joined)] else [])).foldl arrive s.port.reports

/-- R57, R62, R86: the sets of an evaluation and what a split round is; a split round in MEMBER raises the split count, any other clears it; and when the count
reaches the split limit, the station goes from MEMBER to LISTEN with cause SPLIT (`TeardownIntoListen` says what else happens).
R66, R73, R74: the evaluation hands the membership controller its verdict, which it judges against the state it finds. Taken next, the
two are the whole boundary; a verdict to which that state gives no effect changes nothing; a STOP between the two makes it void, with
one STATE report, and a STOP after both finds the state that the verdict left, with two. R10, R43: the boundary that the STOP follows
has occurred in full, its reports before the STATE report. That the boundary is so split into rows, the other hand-offs of the
evaluation taken with it, is the model's reading (log 22), and so are the place of its LINE_ERRORS report (log 7) and that of the NOT_SENT
reports that wait behind an insertion, which stand before the STATE report of the STOP (log 17). -/
def Obligations.SplitRound : Prop :=
  SortsByBound
  ∧ (∀ (number : Station) (inside outside : List Station),
    splitRound number inside outside = true ↔
      inside.length + 1 < outside.length
      ∨ (outside.length = inside.length + 1 ∧ ∃ m ∈ outside, ∀ j ∈ number :: inside, m < j))
  ∧ (∀ (s : State) (turn : LineTurn), s.owed.boundary = true → s.member.state = .member →
    let bound := s.config.outlierBound.toNat
    let splits := splitRound s.number (stationsWhere s.sync.peers (·.inBound bound))
      (stationsWhere s.sync.peers (·.outOfBound bound))
    ∃ t, exec (.roundBoundary (.whole turn)) s = .next t
      ∧ (splits = false → 0 < s.config.splitLimit → t.member.state = .member ∧ t.member.cause = s.member.cause
          ∧ t.sync.splitCount = 0)
      ∧ (splits = true → s.sync.splitCount + 1 < s.config.splitLimit →
          t.member.state = .member ∧ t.member.cause = s.member.cause ∧ t.sync.splitCount = s.sync.splitCount + 1)
      ∧ (splits = true → s.config.splitLimit ≤ s.sync.splitCount + 1 →
          t.member.state = .listen ∧ t.member.cause = some .split))
  ∧ (∀ (s : State) (turn : LineTurn), s.owed.boundary = true → s.member.state = .joining ∨ s.member.state = .member →
    ∃ u t, exec (.roundBoundary (.evaluation turn)) s = .next u ∧ exec (.roundBoundary .verdict) u = .next t
      ∧ exec (.roundBoundary (.whole turn)) s = .next t
      ∧ u.owed = { s.owed with boundary := false, verdict := some { verdict := s.verdict, turn := turn } }
      ∧ u.member.state = s.member.state ∧ u.member.cause = s.member.cause ∧ u.sync.peers = s.evaluatedPeers)
  ∧ (∀ (s : State) (h : HandedVerdict), s.owed.verdict = some h → h.turn ≠ .last ∨ s.line.errors = 0 →
    h.verdict = .none ∨ (h.verdict = .split ∧ s.member.state ≠ .member)
      ∨ ((h.verdict = .join ∨ h.verdict = .joinFailure) ∧ s.member.state ≠ .joining) →
    exec (.roundBoundary .verdict) s = .next (s.withOwed { s.owed with verdict := none }))
  ∧ ∀ (s : State) (turn : LineTurn) (n : Nat), s.owed.boundary = true → s.member.state = .joining ∨ s.member.state = .member →
    1 ≤ n → n ≤ 16 → s.port.work = .current .stop n →
    let states (added : List Report) : List ReportDetail := (added.map (·.detail)).filter (·.isState)
    let added := s.boundaryReports turn s.evaluatedPeers [] ++ (s.withOwed { s.owed with verdict := none }).stoppedReports .stop
    (∃ u v t, exec (.roundBoundary (.evaluation turn)) s = .next u ∧ exec .stop u = .next v
      ∧ exec (.roundBoundary .verdict) v = .next t ∧ t = v.withOwed { v.owed with verdict := none }
      ∧ t.member.state = .stopped ∧ t.member.cause = some .stop
      ∧ t.port.reports = added.foldl arrive s.port.reports ∧ states added = [.state s.member.state .stopped .stop])
    ∧ ∀ new cause, (s.verdict = .split ∧ new = .listen ∧ cause = .split) ∨ (s.verdict = .join ∧ new = .member ∧ cause = .joined)
        ∨ (s.verdict = .joinFailure ∧ new = .listen ∧ cause = .joinFailed) →
      ∃ u v added, exec (.roundBoundary (.whole turn)) s = .next u ∧ u.member.state = new ∧ u.member.cause = some cause
        ∧ exec .stop u = .next v ∧ v.member.state = .stopped ∧ v.member.cause = some .stop
        ∧ v.port.reports = added.foldl arrive s.port.reports
        ∧ states added = [.state s.member.state new cause, .state new .stopped .stop]

/-- R17, R33, R50, R70, R91, R116, R130, R152: what a teardown into LISTEN does to every block, for a split in MEMBER and a join
failure in JOINING. R60, R61, R75, R116: the reports of the evaluation, then the STATE report, then a FLUSHED report if the action
queue held an entry, with the LINE_ERRORS report where the row's operand says (log 7). An insertion handed over stays, and what waits
behind it is reported before the STATE report (log 17). -/
def Obligations.TeardownIntoListen : Prop :=
  ∀ (s t : State) (turn : LineTurn), s.owed.boundary = true → s.member.state = .joining ∨ s.member.state = .member →
    exec (.roundBoundary (.whole turn)) s = .next t → t.member.state = .listen →
    let cause : Cause := if s.member.state = .member then .split else .joinFailed
    t.member = { state := .listen, alone := true, cause := some cause, number := s.member.number }
    ∧ t.clock = { ticks := s.clock.ticks, cluster := none, slew := 0, spacing := 0, listen := some 0 }
    ∧ t.line = { s.line with errors := 0 }
    ∧ t.cont = { s.cont with
        queue := (s.cont.queue.filter (·.inTransmission)).map (fun r => { r with isVoid := true })
        offered := none }
    ∧ (∀ i : Fin 16, t.sync.peers[i] = if (s.sync.peers[i]).state = .self
        then { s.sync.peers[i] with fresh := false } else PeerRecord.cleared)
    ∧ t.sync.splitCount = 0 ∧ t.sync.joinRounds = 0 ∧ t.sync.noFresh = 0
    ∧ t.sched = { s.sched with queue := [] }
    ∧ (∀ l : Fin 8, t.out.lines[l] =
        match s.out.lines[l] with
        | .released => .released
        | .driven high none => .driven (if s.config.resync.getLsbD l then s.defaultHigh l else high) none
        | .driven _ (some _) => .driven (s.defaultHigh l) none)
    ∧ t.cap = { s.cap with filters := some (Vector.ofFn fun i => { level := s.pins.getLsbD i, run := 0, first := none }) }
    ∧ t.owed = { s.owed with
        boundary := false, fireFrom := none, verdict := none
        insertions := s.owed.insertions.map fun h => { h with behind := [] } }
    ∧ t.exch = s.exch ∧ t.cfg = s.cfg ∧ t.pins = s.pins
    ∧ t.port = { s.port with reports := t.port.reports, attn := t.port.attn }
    ∧ t.port.reports = (s.boundaryReports turn s.evaluatedPeers
        (s.waitingReports ++ [{ detail := .state s.member.state .listen cause, stamp := s.clock.ticks, unsynced := true }]
          ++ if s.sched.queue = [] then [] else
            [{ detail := .flushed s.sched.queue.length cause, stamp := s.clock.ticks, unsynced := true }])).foldl arrive s.port.reports

/-- R63, R64, R83, R84: the join test in JOINING, R57: over the in-bound set. A pass makes the station MEMBER with no teardown and one
STATE report; a failure at a limit returns it to LISTEN (`TeardownIntoListen` says what else happens); otherwise it stays JOINING with
the counts raised. -/
def Obligations.JoinTest : Prop :=
  SortsByBound
  ∧ ∀ (s : State) (turn : LineTurn), s.owed.boundary = true → s.member.state = .joining →
    let bound := s.config.outlierBound.toNat
    let passes := stationsWhere s.sync.peers (·.inBound bound) ≠ []
      ∧ (rawCorrection (inBoundOffsets bound s.sync.peers)).natAbs ≤ s.config.syncBound.toNat
    let heard := ∃ i : Fin 16, (s.sync.peers[i]).fresh = true ∧ (s.sync.peers[i]).state ≠ .self
      ∧ (s.sync.peers[i]).beacon.any (·.body.member) = true
    let silent := if heard then 0 else s.sync.noFresh + 1
    let fails := 2 * s.config.listenRounds ≤ s.sync.joinRounds + 1 ∨ s.config.lostLimit ≤ silent
    ∃ t, exec (.roundBoundary (.whole turn)) s = .next t
      ∧ t.line.errors = 0
      ∧ (passes → t.member.state = .member ∧ t.member.cause = some .joined ∧ t.clock.cluster = s.clock.cluster
          ∧ t.clock.ticks = s.clock.ticks ∧ t.sched = s.sched ∧ t.sync.splitCount = s.sync.splitCount ∧ t.cap = s.cap
          ∧ t.out = s.out
          ∧ ∃ before after : List Report, t.port.reports = (before ++ [s.stamped (.state .joining .member .joined)] ++ after).foldl arrive
              s.port.reports
            ∧ ∀ r ∈ before ++ after, ∀ old new c, r.detail ≠ .state old new c)
      ∧ (¬ passes → fails → t.member.state = .listen ∧ t.member.cause = some .joinFailed)
      ∧ (¬ passes → ¬ fails → t.member.state = .joining ∧ t.member.cause = s.member.cause
          ∧ t.sync.joinRounds = s.sync.joinRounds + 1
          ∧ t.sync.noFresh = silent ∧ t.sched = s.sched)

/-- R21, R65: the beacon that an evaluation builds, and how the transmit queue takes it. -/
def Obligations.OwnBeacon : Prop :=
  ∀ (s : State) (turn : LineTurn), s.owed.boundary = true → s.member.state = .joining ∨ s.member.state = .member →
    s.verdict = .none ∨ s.verdict = .join → ∃ t body, exec (.roundBoundary (.whole turn)) s = .next t
      ∧ (body.member = true ↔ s.member.state = .member ∨ s.verdict = .join)
      ∧ body.alone = t.member.alone
      ∧ body.count.toNat = (stationsWhere t.sync.peers (fun r => r.state = .synced)).length + 1
      ∧ (∀ i : Fin 16, body.bitmap.getLsbD i = decide ((t.sync.peers[i]).state = .synced))
      ∧ (let queue := s.cont.queue
         let new := TxRecord.fresh (.beacon none body) false none
         ((∃ x ∈ queue, x.kind = .beacon ∧ x.inTransmission = true) → t.cont = s.cont)
         ∧ ((∀ x ∈ queue, x.kind = .beacon → x.inTransmission = false) → (∃ x ∈ queue, x.kind = .beacon) →
              t.cont = { s.cont with queue := queue.map fun x => if x.kind = .beacon then new else x })
         ∧ ((∀ x ∈ queue, x.kind ≠ .beacon) → queue.length < 8 → t.cont = { s.cont with queue := queue ++ [new] })
         ∧ ((∀ x ∈ queue, x.kind ≠ .beacon) → 8 ≤ queue.length → t.cont = s.cont))

/-! ### Founding, firing, pulses, edges -/

/-- R47, R80: at the expiry of the listen window in LISTEN the station founds a cluster: cluster time 0, slew 0, MEMBER, cause
FOUNDED and a STATE report stamped 0; that the row changes nothing before the expiry is the model's choice (log 2). -/
def Obligations.Founding : Prop :=
  ∀ (s : State) (n : Nat), s.member.state = .listen → s.clock.listen = some n →
    let window := s.config.listenRounds * 2 ^ s.config.k + s.number.val * 2 ^ (s.config.k - 4)
    (n < window → exec .listenWindowExpiry s = .next s)
    ∧ (window ≤ n → ∃ t, exec .listenWindowExpiry s = .next t
        ∧ t = ((s.withMember { s.member with state := .member, alone := true, cause := some .founded }).withClock
            { s.clock with cluster := some 0, slew := 0, spacing := 0, listen := none }).withPort
              { s.port with reports := t.port.reports, attn := t.port.attn }
        ∧ t.port.reports = arrive s.port.reports
            { detail := .state .listen .member .founded, stamp := 0, unsynced := false })

/-- R104–R106, R121, R122: a due one-shot entry at the front fires: it leaves the queue, its line takes the level of its kind,
a PULSE sets its trailing edge, and FIRED is queued when notify is set. R104–R108, R123: the due entries fire in queue order; each
hands its line its kind in turn; a one-shot and a repeating entry at its last firing are gone, and any other repeating entry, the
values of an amendment taken first, is placed again with its next due time, its count and a fresh insertion sequence. R95: it is placed
behind every entry of its due time and ahead of every later one. -/
def Obligations.Firing : Prop :=
  PlacesInOrder
  ∧ (∀ (s : State) (c : Time) (e : Entry) (rest : List Entry), s.member.state = .member → s.owed.fireFrom = some c →
    s.sched.queue = e :: rest → e.rep = none → isAfter e.due c = true → isAfter e.due s.now = false →
    (∀ x ∈ rest, isAfter x.due s.now = true) →
    ∃ t, exec .firing s = .next t
      ∧ t = (((s.withSched { s.sched with queue := rest }).withOut t.out).withOwed { s.owed with fireFrom := none }).withPort
          { s.port with reports := t.port.reports, attn := t.port.attn }
      ∧ t.port.reports = (if e.notify then arrive s.port.reports
          { detail := .fired e.id e.line e.kind e.due none, stamp := s.stampTime, unsynced := s.unsynced } else s.port.reports)
      ∧ (∀ l, l ≠ e.line → t.out.lines[l] = s.out.lines[l])
      ∧ ∀ high edge, s.out.lines[e.line] = .driven high edge →
          (e.kind = .set → t.out.lines[e.line] = .driven true none)
          ∧ (e.kind = .clear → t.out.lines[e.line] = .driven false none)
          ∧ (e.kind = .toggle → t.out.lines[e.line] = .driven (!high) none)
          ∧ (e.kind = .pulse → ∀ w, e.width = some w → t.out.lines[e.line] = .driven (!s.defaultHigh e.line)
              (some { endTime := e.due + w.zeroExtend 32, id := e.id,
                      overdue := !isAfter (e.due + w.zeroExtend 32) s.now, reached := false })))
  ∧ ∀ (s : State) (c : Time) (due rest : List Entry), s.member.state = .member → s.owed.fireFrom = some c →
    s.sched.queue = due ++ rest →
    (∀ e ∈ due, isAfter e.due c = true ∧ isAfter e.due s.now = false) →
    (∀ e ∈ rest, ¬ (isAfter e.due c = true ∧ isAfter e.due s.now = false)) →
    let used (e : Entry) (held : Repeat) : Repeat := e.pendingRep.getD held
    let left (r : Repeat) : Byte := if r.count = 0 then 0 else r.count - 1
    (∀ e ∈ due, ∀ held, e.rep = some held → (used e held).count ≠ 1 →
      isAfter (e.due + (used e held).period) s.now = true) →
    ∃ t, exec .firing s = .next t
      ∧ t = (((s.withSched t.sched).withOut t.out).withOwed { s.owed with fireFrom := none }).withPort
          { s.port with reports := t.port.reports, attn := t.port.attn }
      ∧ t.out.lines = due.foldl (fun lines e => lines.set e.line
          ((lines[e.line]).fired (s.defaultHigh e.line) s.now e.kind (e.width.getD 0) e.id e.due)) s.out.lines
      ∧ t.port.reports = ((due.filter (·.notify)).map fun e =>
          ({ detail := .fired e.id e.line e.kind e.due (e.rep.map fun held =>
              if (used e held).count = 1 then { left := 0, ended := true } else { left := left (used e held), ended := false })
             stamp := s.stampTime, unsynced := s.unsynced } : Report)).foldl arrive s.port.reports
      ∧ t.sched = due.foldl (fun (q : Scheduler) e =>
          match e.rep with
          | none => q
          | some held =>
            if (used e held).count = 1 then q
            else
              { queue := placeIn s.now { e with
                  due := e.due + (used e held).period
                  rep := some { used e held with count := left (used e held) }
                  pendingRep := none
                  sequence := q.counter + 1 } q.queue
                counter := q.counter + 1 }) { s.sched with queue := rest }

/-- R104: after the firing of a tick no entry that the tick made due is left, and every entry not due is still there. -/
def Obligations.FiringLeavesNothingDue : Prop :=
  ∀ (s : State) (c : Time), s.ActionsOk → s.member.state = .member → s.owed.fireFrom = some c →
    ∃ t, exec .firing s = .next t ∧ t.owed.fireFrom = none ∧ t.now = s.now
      ∧ (∀ e ∈ t.sched.queue, e.due ≠ t.now ∧ ¬ (isAfter e.due c = true ∧ isAfter e.due t.now = false))
      ∧ ∀ e ∈ s.sched.queue, ¬ (isAfter e.due c = true ∧ isAfter e.due s.now = false) → e ∈ t.sched.queue

/-- R106, R107: the step of a repeating entry, the values of an amendment taken first, and the skips: they stop at the first
due time that is not before now, each counting as one firing, or end the entry at the last occurrence of its count, which is before
now too. A step whose next due time is before now skips from there. -/
def Obligations.StepAndSkip : Prop :=
  (∀ (e : Entry) (now : Time) (p : Repeat), e.rep.isSome = true → e.pendingRep = some p →
    stepEntry e now = stepEntry { e with rep := some p, pendingRep := none } now)
  ∧ (∀ (e : Entry) (now : Time) (r : Repeat), e.rep = some r → e.pendingRep = none → r.count = 1 →
      stepEntry e now = (none, 0, some { left := 0, ended := true }))
  ∧ (∀ (e : Entry) (now : Time) (r : Repeat), e.rep = some r → e.pendingRep = none → r.count ≠ 1 →
      isBefore (e.due + r.period) now = false →
      let left := if r.count = 0 then 0 else r.count - 1
      16 ≤ r.period.toNat → stepEntry e now = (some { e with due := e.due + r.period, rep := some { r with count := left } }, 0,
        some { left := left, ended := false }))
  ∧ (∀ (e : Entry) (now : Time) (r : Repeat), e.rep = some r → e.pendingRep = none → r.count ≠ 1 →
      isBefore (e.due + r.period) now = true →
      let skipped := skipMissed (e.due + r.period) now r.period (if r.count = 0 then 0 else r.count - 1)
      (skipped.1 = none → stepEntry e now = (none, skipped.2, some { left := 0, ended := true }))
      ∧ ∀ due left, skipped.1 = some (due, left) → stepEntry e now
          = (some { e with due := due, rep := some { r with count := left } }, skipped.2, some { left := left, ended := false }))
  ∧ ∀ (next now period : Time) (count : Byte), 16 ≤ period.toNat → period.toNat < 2 ^ 31 →
      let skips := (skipMissed next now period count).2
      ((skipMissed next now period count).1 = none → count ≠ 0 ∧ skips = count.toNat
        ∧ isBefore (next + period * BitVec.ofNat 32 (count.toNat - 1)) now = true)
      ∧ ∀ due left, (skipMissed next now period count).1 = some (due, left) →
          isBefore due now = false ∧ due = next + period * BitVec.ofNat 32 skips
          ∧ (skips ≠ 0 → isBefore (due - period) now = true)
          ∧ (count = 0 → left = 0) ∧ (count ≠ 0 → left.toNat + skips = count.toNat)

/-- R125: a pending trailing edge ends at the first advance that reaches its end time, or at the next tick when it is overdue:
the line goes to its default level and the edge is gone. -/
def Obligations.PulseEndsAtItsTime : Prop :=
  ∀ (s : State) (levels : BitVec 8) (l : Fin 8) (high : Bool) (e : TrailingEdge) (c : Time),
    s.Quiet → s.member.state = .member → s.clock.cluster = some c → s.out.lines[l] = .driven high (some e) →
    e.reached = false → ∃ t u, exec (.tick levels) s = .next t ∧ exec (.pulseEnd l) t = .next u
      ∧ u = t.withOut u.out ∧ (∀ m, m ≠ l → u.out.lines[m] = t.out.lines[m])
      ∧ (e.overdue = true ∨ (isAfter e.endTime c = true ∧ isAfter e.endTime t.now = false) →
          u.out.lines[l] = .driven (s.defaultHigh l) none)
      ∧ (¬ (e.overdue = true ∨ (isAfter e.endTime c = true ∧ isAfter e.endTime t.now = false)) →
          u.out.lines[l] = .driven high (some e))

/-- R150, R151, R153–R156: a qualified edge takes the new level; an edge that the mode does not select does nothing else; a
selected one makes a log record with the stamp of its first sample, which a full log under STOP discards and one under WRAP takes in
place of its oldest. No reflex acts here: none names the edge, or, R162, the station is
not MEMBER or the stamp is a local one. -/
def Obligations.QualifiedEdge : Prop :=
  ∀ (s : State) (i : Fin 8) (f : Vector InputFilter 8) (first : SampleRecord), s.cap.filters = some f →
    (f[i]).first = some first → (s.config.inputs[i]).filter ≤ (f[i]).run →
    let level := !(f[i]).level
    let edge : EdgeDir := if level then .rise else .fall
    let qualified := some (f.set i { level := level, run := 0, first := none })
    let stamp := if s.valid then first.cluster.getD first.ticks else first.ticks
    let onCluster := s.valid && first.cluster.isSome
    (State.selects (s.config.inputs[i]).mode edge = false →
      exec (.edgeQualified (.whole i)) s = .next (s.withCap { s.cap with filters := qualified }))
    ∧ (State.selects (s.config.inputs[i]).mode edge = true →
        (s.member.state = .member → onCluster = true → ∀ n : Fin 16, (s.config.reflexes[n]).enabled = true →
          (s.config.reflexes[n]).input = i → (s.config.reflexes[n]).edge ≠ edge) →
        ∃ t, exec (.edgeQualified (.whole i)) s = .next t
          ∧ (s.withCap { s.cap with filters := qualified }).Logs t {
              station := s.number
              channel := .input i
              edge := if level then .rise else .fall
              stamp := stamp
              base := if onCluster then .clusterTime else .localTicks
              synced := decide (s.member.state = .member) && onCluster
              remote := none })

/-- R146, R153, R154, R163–R165: what the three effects of a reflex do in MEMBER. A PUBLISH queues an EVENT and a POST an ACTION,
each with NOT_SENT on a full transmit queue; a LOCAL takes the serial and is inserted with source REFLEX, a refusal being reported.
R156, R162: a selected edge in MEMBER with a cluster stamp makes its log record, entered or discarded, and then the entries that name
it act, from entry 0 to entry 15, each on the state that the one before it left. R160, R165: an insertion left to the scheduler is
taken as an event of its own, the one handed over first before the others, and outside MEMBER it is discarded with no report of its
own (that the serial is taken as it is handed over is the model's reading, log 17). R166: while an insertion of the same edge is left,
a NOT_SENT report waits and stands behind that one's own (where it waits is the model's reading too). -/
def Obligations.Reflexes : Prop :=
  let taken (serial : Half) : Half := if serial = 0xFFFF then 0x8000 else serial + 1
  let action (s : State) (x : ReflexEntry) (stamp : Time) : ActionFields :=
    { selector := x.selector, serial := s.cap.reflexSerial, due := stamp + x.delay.zeroExtend 32, line := x.line, kind := x.kind,
      notify := false, width := if x.kind = .pulse then some x.width else none, rep := none }
  let refused (a : ActionFields) (v : State) (reason : Byte) : State :=
    v.report (.refused { origin := v.number, serial := a.serial } v.number reason)
  (∀ (s : State) (earlier : Nat) (n : Fin 16) (x : ReflexEntry) (stamp : Time), s.member.state = .member →
    let next := s.withCap { s.cap with reflexSerial := taken s.cap.reflexSerial }
    let handed := next.withOwed { s.owed with insertions := s.owed.insertions ++ [{ action := action s x stamp, behind := [] }] }
    (s.cont.queue.length < 8 → s.publish earlier n x stamp
      = (s.withCont { s.cont with queue := s.cont.queue ++
          [.fresh (.event x.selector x.input x.edge stamp s.cap.eventCounter) false (some n)] }).withCap
            { s.cap with eventCounter := s.cap.eventCounter + 1 })
    ∧ (8 ≤ s.cont.queue.length → s.publish earlier n x stamp = s.reportNotSent earlier .event n)
    ∧ (s.cont.queue.length < 8 → s.reflexPost earlier n x stamp
      = next.withCont { s.cont with queue := s.cont.queue ++ [.fresh (.action (action s x stamp)) true (some n)] })
    ∧ (8 ≤ s.cont.queue.length → s.reflexPost earlier n x stamp = s.reportNotSent earlier .action n)
    ∧ (s.owed.insertions = [] →
        next.Inserts (s.reflexLocal true x stamp) (action s x stamp) s.number .reflex (refused (action s x stamp)))
    ∧ s.reflexLocal true x stamp = (handed.owed.insertions.foldl (fun v _ => v.insertNext) handed)
    ∧ s.reflexLocal false x stamp = handed)
  ∧ (∀ (s : State) (earlier : Nat) (kind : FrameKind) (n : Fin 16),
    (s.owed.insertions.length ≤ earlier → s.reportNotSent earlier kind n = s.report (.notSent kind (.reflex n none)))
    ∧ ∀ before h, s.owed.insertions = before ++ [h] → earlier ≤ before.length → s.reportNotSent earlier kind n
      = s.withOwed { s.owed with insertions := before ++ [{ h with
          behind := h.behind ++ [{ kind := kind, entry := n, stamp := s.stampTime, unsynced := s.unsynced }] }] })
  ∧ (∀ (s : State) (i : Fin 8) (event : EdgeEvent) (f : Vector InputFilter 8) (ticks : Time) (stamp : Time),
    event = .whole i ∨ event = .handOver i → s.cap.filters = some f →
    (f[i]).first = some { ticks := ticks, cluster := some stamp } → (s.config.inputs[i]).filter ≤ (f[i]).run →
    s.member.state = .member → s.valid = true →
    let edge : EdgeDir := if (f[i]).level then .fall else .rise
    State.selects (s.config.inputs[i]).mode edge = true →
    ∃ t u, exec (.edgeQualified event) s = .next t
      ∧ (s.withCap { s.cap with filters := some (f.set i { level := !(f[i]).level, run := 0, first := none }) }).Logs u {
          station := s.number
          channel := .input i
          edge := if (f[i]).level then .fall else .rise
          stamp := stamp
          base := .clusterTime
          synced := true
          remote := none }
      ∧ t = (List.finRange 16).foldl (fun v n =>
          let x := s.config.reflexes[n]
          if x.enabled = true ∧ x.input = i ∧ x.edge = edge then
            match x.effect with
            | .publish => v.publish s.owed.insertions.length n x stamp
            | .post => v.reflexPost s.owed.insertions.length n x stamp
            | .toSelf => v.reflexLocal (decide (event = .whole i)) x stamp
          else v) u)
  ∧ ∀ (s : State) (h : HandedOver) (rest : List HandedOver), s.owed.insertions = h :: rest →
    let u := s.withOwed { s.owed with insertions := rest }
    let behind : List Report := h.behind.map fun r =>
      { detail := .notSent r.kind (.reflex r.entry none), stamp := r.stamp, unsynced := r.unsynced }
    ∃ v t, exec (.edgeQualified .insertion) s = .next t
      ∧ t = v.withPort { v.port with reports := behind.foldl arrive v.port.reports, attn := t.port.attn }
      ∧ (s.member.state ≠ .member → v = u)
      ∧ (s.member.state = .member → u.Inserts v h.action s.number .reflex (refused h.action))

/-! ### The line -/

/-- R1, R6, R8, R22, R26: LINE_IDLE begins an idle period; an accepted start edge ends it, takes the SOF record and defers what
was offered, the start bit being held as sampled dominant (the model's reading, log 12); a rejected one restarts the idle count, between
two characters of a frame too, whose gap goes on, and takes a receiver that holds only its start bit back to WAIT (log 10). R14: the
count of the release restarts with it. FRAME_TRUNCATED stands for the bit times that the gap still lacks (log 3). -/
def Obligations.IdleAndStartEdges : Prop :=
  ∀ s : State,
    (s.line.receiver = .seek ∨ s.line.receiver = .wait → s.cont.idle = false → exec .lineIdle s = .next
      ((s.withLine { s.line with receiver := .wait, dominantRun := 0, recessiveRun := 12 }).withCont
        { s.cont with idle := true, slot := none, offered := none }))
    ∧ (s.line.receiver = .wait → exec .startOfFrame s = .next
      ((s.withLine { s.line with
          receiver := .receive
          sof := some { localStamp := s.clock.ticks, clusterStamp := s.clock.cluster }
          frame := some { chars := [], bits := [false], gap := 0 }
          dominantRun := 1
          recessiveRun := 0 }).withCont { queue := s.cont.queue, idle := false, slot := none, offered := none }))
    ∧ (s.line.receiver = .wait → exec .rejectedStartEdge s = .next
      ((s.withLine { s.line with dominantRun := 0, recessiveRun := 0 }).withCont
        { queue := s.cont.queue, idle := false, slot := none, offered := none }))
    ∧ (s.line.receiver = .receive → s.line.frame = some { chars := [], bits := [false], gap := 0 } →
        exec .rejectedStartEdge s = .next (s.withLine { s.line with
          receiver := .wait, sof := none, frame := none, dominantRun := 0, recessiveRun := 0 }))
    ∧ (∀ f, s.line.receiver = .receive → s.line.frame = some f → f.bits = [] →
        exec .rejectedStartEdge s = .next (s.withLine { s.line with dominantRun := 0, recessiveRun := 0 })
        ∧ ∃ t, exec .frameTruncated s = .next t ∧ t.line.recessiveRun = s.line.recessiveRun + (11 - f.gap))
    ∧ (s.line.receiver = .receive → s.line.frame ≠ some { chars := [], bits := [false], gap := 0 } →
        (∀ f, s.line.frame = some f → f.bits ≠ []) → exec .rejectedStartEdge s = .next s)
    ∧ (s.line.receiver = .seek →
        exec .rejectedStartEdge s = .next (s.withLine { s.line with dominantRun := 0, recessiveRun := 0 }))

/-- R3, R11, R19, R22, R23, R25, R27: the next slot begins; the oldest record of the lowest class, by the table of the kinds, is offered;
it starts exactly when the slot is its contention value, the receiver is in WAIT, the line is not muted and the state admits its kind: a
BEACON in JOINING and MEMBER, any other in MEMBER. R66: while a split or a
join failure of an evaluation is still to be taken, its beacon does not start (that the two come as two rows is the model's reading,
log 22). -/
def Obligations.IdleSlot : Prop :=
  ∀ s : State, s.cont.idle = true →
    let frameClass (x : TxRecord) : Nat := match x.payload with
      | .beacon _ _ => 0
      | .refuse _ _ _ => 1
      | .action _ | .amend _ _ _ | .cancel _ _ => 2
      | .event _ _ _ _ _ => 3
    let slot : Fin 64 := match s.cont.slot with
      | none => 0
      | some n => n + 1
    ((s.cont.queue = [] ∨ ∃ x ∈ s.cont.queue, x.inTransmission = true) → ∃ t, exec .idleSlot s = .next t
      ∧ t = (s.withLine { s.line with recessiveRun := t.line.recessiveRun }).withCont
          { s.cont with slot := some slot, offered := none })
    ∧ ∀ (before after : List TxRecord) (r : TxRecord), s.cont.queue = before ++ r :: after →
      (∀ x ∈ s.cont.queue, x.inTransmission = false ∧ frameClass r ≤ frameClass x) →
      (∀ x ∈ before, frameClass x ≠ frameClass r) →
      let value := 16 * frameClass r + rank s.number s.round
      let starts := value = slot.val ∧ s.line.receiver = .wait ∧ s.line.muted = false
        ∧ (s.member.state = .member ∨ (s.member.state = .joining ∧ frameClass r = 0))
        ∧ (frameClass r = 0 → ∀ h, s.owed.verdict = some h → h.verdict ≠ .split ∧ h.verdict ≠ .joinFailure)
      ∃ t, exec .idleSlot s = .next t
        ∧ (¬ starts → t = (s.withLine { s.line with recessiveRun := t.line.recessiveRun }).withCont
            { s.cont with slot := some slot, offered := some { place := before.length, value := value } })
        ∧ (starts → t = (s.withLine { s.line with
              receiver := .send
              sof := some { localStamp := s.clock.ticks, clusterStamp := s.clock.cluster }
              frame := none
              sending := frameBytes s.number s.now r.payload
              afterSend := .inStep
              dominantRun := 0
              recessiveRun := 0 }).withCont
            { queue := before ++ { r with inTransmission := true } :: after, idle := false, slot := none, offered := none })

/-- R24: the contention value is 16 × class + rank with rank = (station number − round number) mod 16; it lies in its class's
band of sixteen values, and two stations that agree on the round never share a rank. R3, R19: the class of each kind, and the kinds that
each state admits. -/
def Obligations.ContentionValue : Prop :=
  (∀ r : TxRecord, r.frameClass = match r.payload with
    | .beacon _ _ => 0
    | .refuse _ _ _ => 1
    | .action _ | .amend _ _ _ | .cancel _ _ => 2
    | .event _ _ _ _ _ => 3)
  ∧ (∀ (kind : FrameKind) (state : StationState),
    takesKind kind state = true ↔ state = .member ∨ (state = .joining ∧ kind = .beacon))
  ∧ (∀ (frameClass : Nat) (number : Station) (round : Time),
    (contentionValue frameClass number round : Int) = 16 * frameClass + (number.val - round.toNat : Int) % 16)
  ∧ (∀ (frameClass : Nat) (number : Station) (round : Time),
      16 * frameClass ≤ contentionValue frameClass number round ∧ contentionValue frameClass number round < 16 * frameClass + 16)
  ∧ ∀ (a b : Station) (round : Time), rank a round = rank b round → a = b

/-- R6, R7, R9: a truncation or a failed check discards the frame, counts one error in JOINING and MEMBER (at most 65535) and
sends the receiver to SEEK; only the line unit changes. R2, R6: between two characters the receiver waits while the gap is shorter
than 11 bit times, and a gap of 11 truncates the frame. R1, R3, R5, R7, R9: a receive error is a dominant stop bit, a header of kind 0 or 7,
a length outside the kind's list, a check that is not the CRC-16 of the characters before it, and an ACTION whose length disagrees with
its control byte; any other character is taken, and the frame is valid at the last. That samples which neither complete nor fail leave
the frame in assembly is the model's choice (log 4). -/
def Obligations.FrameErrors : Prop :=
  (∀ (s : State) (f : PartialFrame), s.line.receiver = .receive → s.line.frame = some f →
    let counted := if s.member.state = .joining ∨ s.member.state = .member then min (s.line.errors + 1) 65535 else s.line.errors
    (f.bits = [] → ∃ t, exec .frameTruncated s = .next t ∧ t = s.withLine t.line
      ∧ t.line.receiver = .seek ∧ t.line.sof = none ∧ t.line.frame = none ∧ t.line.errors = counted
      ∧ t.line.muted = s.line.muted)
    ∧ (∀ event samples, State.samplesOf event samples → takeSamples f samples = .error ∨ takeSamples f samples = .truncated →
      ∃ t, exec (.frameCompletion event) s = .next t ∧ t = s.withLine t.line
      ∧ t.line.receiver = .seek ∧ t.line.sof = none ∧ t.line.frame = none ∧ t.line.errors = counted
      ∧ t.line.muted = s.line.muted)
    ∧ ∀ event samples f', State.samplesOf event samples → takeSamples f samples = .more f' →
      ∃ t, exec (.frameCompletion event) s = .next t
      ∧ t = s.withLine t.line ∧ t.line.receiver = .receive ∧ t.line.sof = s.line.sof ∧ t.line.frame = some f'
      ∧ t.line.errors = s.line.errors ∧ t.line.muted = s.line.muted)
  ∧ (∀ (chars : List Byte) (n : Nat) (rest : List Bool),
    (n < 11 → takeSamples { chars := chars, bits := [], gap := 0 } (List.replicate n true ++ false :: rest)
        = takeSamples { chars := chars, bits := [false], gap := 0 } rest)
    ∧ (11 ≤ n → takeSamples { chars := chars, bits := [], gap := 0 } (List.replicate n true ++ rest) = .truncated))
  ∧ (∀ (chars : List Byte) (b : Byte) (rest : List Bool),
    takeSamples (.awaiting chars) ((characterBits b).take 9 ++ false :: rest) = .error)
  ∧ (∀ (l : List Byte) (b : Byte), crc16 [] = 0xFFFF ∧ crc16 (l ++ [b])
    = [7, 6, 5, 4, 3, 2, 1, 0].foldl
        (fun (c : Half) (i : Nat) => if c.msb ≠ b.getLsbD i then (c <<< 1) ^^^ 0x1021 else c <<< 1) (crc16 l))
  ∧ ∀ (header length low high : Byte) (rest : List Bool),
    let kind := header.toNat / 32
    let lengths : List Nat := [[], [8], [9, 11, 14, 16], [9], [4], [9], [4], []].getD kind []
    takeSamples (.awaiting []) (characterBits header ++ rest)
      = (if kind = 0 ∨ kind = 7 then .error else takeSamples (.awaiting [header]) rest)
    ∧ (kind ≠ 0 → kind ≠ 7 → takeSamples (.awaiting [header]) (characterBits length ++ rest)
      = if length.toNat ∈ lengths then takeSamples (.awaiting [header, length]) rest else .error)
    ∧ (length.toNat ∈ lengths → ∀ (part : List Byte) (b : Byte), part.length < length.toNat + 1 →
      takeSamples (.awaiting (header :: length :: part)) (characterBits b ++ rest)
        = takeSamples (.awaiting (header :: length :: (part ++ [b]))) rest)
    ∧ (length.toNat ∈ lengths → ∀ payload : List Byte, payload.length = length.toNat →
      let control := (payload.getD 8 0).toNat
      let carried := 9 + (if control / 8 % 4 = 3 then 2 else 0) + (if control / 64 % 2 = 1 then 5 else 0)
      let received := takeSamples (.awaiting (header :: length :: (payload ++ [low]))) (characterBits high ++ rest)
      ((crc16 (header :: length :: payload)).toNat ≠ low.toNat + 256 * high.toNat → received = .error)
      ∧ (kind = 2 → length.toNat ≠ carried → received = .error)
      ∧ ((crc16 (header :: length :: payload)).toNat = low.toNat + 256 * high.toNat → (kind = 2 → length.toNat = carried) →
          ∃ frame, received = .valid frame ∧ frame.sender.val = header.toNat % 16 ∧ frame.payload.kind.code = kind))

/-- R48, R54, R81: a valid MEMBER beacon of another station in LISTEN sets cluster time from the beacon and makes the station
JOINING; the beacon is not recorded. A JOINING sender's beacon does nothing there. -/
def Obligations.Adoption : Prop :=
  ∀ (s : State) (f : PartialFrame) (event : FrameEvent) (samples : List Bool) (sender : Station) (time : Time) (body : BeaconBody)
    (sof : SofRecord), State.samplesOf event samples → s.line.receiver = .receive → s.line.frame = some f → s.line.sof = some sof →
    takeSamples f samples = .valid { sender := sender, payload := .beacon (some time) body } →
    s.member.state = .listen → sender ≠ s.number → ∃ t, exec (.frameCompletion event) s = .next t
      ∧ t.line.receiver = .wait ∧ t.line.frame = none ∧ t.line.errors = s.line.errors
      ∧ (body.member = false → t = s.withLine t.line)
      ∧ (body.member = true →
          let adopted := time + s.config.linkDelay.zeroExtend 32 + (s.clock.ticks - sof.localStamp)
          t.member = { state := .joining, alone := true, cause := some .adopted, number := s.member.number }
          ∧ t.clock = { ticks := s.clock.ticks, cluster := some adopted, slew := 0, spacing := 0, listen := none }
          ∧ t.sync = { s.sync with joinRounds := 0, noFresh := 0 }
          ∧ t.port.reports = arrive s.port.reports
              { detail := .state .listen .joining .adopted, stamp := adopted, unsynced := false }
          ∧ t.cont = s.cont ∧ t.sched = s.sched ∧ t.out = s.out ∧ t.exch = s.exch ∧ t.cap = s.cap ∧ t.cfg = s.cfg)

/-- R55, R56: a valid beacon of another station in JOINING or MEMBER sets the offset, the sender's fields and fresh in the
sender's record, and nothing else; without a cluster stamp it is discarded. -/
def Obligations.BeaconReceipt : Prop :=
  ∀ (s : State) (f : PartialFrame) (event : FrameEvent) (samples : List Bool) (sender : Station) (time : Time) (body : BeaconBody)
    (sof : SofRecord), State.samplesOf event samples → s.line.receiver = .receive → s.line.frame = some f → s.line.sof = some sof →
    takeSamples f samples = .valid { sender := sender, payload := .beacon (some time) body } →
    s.member.state = .joining ∨ s.member.state = .member → sender ≠ s.number →
    ∃ t, exec (.frameCompletion event) s = .next t ∧ t.line.receiver = .wait ∧ t.line.errors = s.line.errors
      ∧ t = (s.withLine t.line).withSync { s.sync with peers := t.sync.peers }
      ∧ (sof.clusterStamp = none → t.sync.peers = s.sync.peers)
      ∧ ∀ stamp, sof.clusterStamp = some stamp →
          t.sync.peers[sender] = { s.sync.peers[sender] with
            fresh := true
            beacon := some { offset := time + s.config.linkDelay.zeroExtend 32 - stamp, body := body } }
          ∧ ∀ i : Fin 16, i ≠ sender → t.sync.peers[i] = s.sync.peers[i]

/-- R16, R88, R91: a valid frame with this station's own number stops it with cause DUPLICATE from LISTEN, JOINING or MEMBER. R43, R75,
R116: its reports are those of a boundary taken before it (log 7), the STATE report and the FLUSHED report; what waits behind an insertion is
reported before the STATE report, and no boundary and no firing is owed any more (log 17). -/
def Obligations.DuplicateStops : Prop :=
  ∀ (s : State) (f : PartialFrame) (event : FrameEvent) (samples : List Bool) (payload : Payload),
    State.samplesOf event samples → s.line.receiver = .receive → s.line.frame = some f →
    takeSamples f samples = .valid { sender := s.number, payload := payload } → s.PhaseOk →
    s.active = true → ∃ t, exec (.frameCompletion event) s = .next t
      ∧ t.member.state = .stopped ∧ t.member.cause = some .duplicate ∧ t.member.number = s.member.number
      ∧ t.line.receiver = .off ∧ t.line.muted = false ∧ t.line.errors = 0
      ∧ t.clock.listen = none
      ∧ (s.member.state ≠ .listen → t.clock.cluster = none ∧ t.clock.slew = 0 ∧ t.sched.queue = [] ∧ t.member.alone = true
          ∧ t.cont.queue = (s.cont.queue.filter (·.inTransmission)).map (fun r => { r with isVoid := true })
          ∧ ∀ i : Fin 16, t.sync.peers[i] = if (s.sync.peers[i]).state = .self then s.sync.peers[i] else PeerRecord.cleared)
      ∧ (s.member.state = .listen → t.sched = s.sched ∧ t.sync = s.sync ∧ t.cont.queue = s.cont.queue)
      ∧ t.cont.idle = false ∧ t.cont.slot = none ∧ t.cont.offered = none
      ∧ t.cap = { s.cap with filters := none }
      ∧ (∀ l : Fin 8, t.out.lines[l] =
          match s.out.lines[l] with
          | .released => .released
          | .driven _ _ => .driven (s.defaultHigh l) none)
      ∧ t.clock.ticks = s.clock.ticks ∧ t.exch = s.exch ∧ t.cfg = s.cfg ∧ t.pins = s.pins
      ∧ t.port = { s.port with reports := t.port.reports, attn := t.port.attn }
      ∧ t.port.reports = (s.stoppedReports .duplicate).foldl arrive s.port.reports
      ∧ t.owed = { s.owed with
          boundary := false, fireFrom := none
          insertions := if s.member.state = .listen then s.owed.insertions else
            s.owed.insertions.map fun h => { h with behind := [] } }

/-- R135–R137: a valid ACTION of another station. Outside MEMBER, or when its selector does not pass, it is passed over. Otherwise it
is inserted with source REMOTE, in place of a queued entry of its id (R96–R103), and a refusal is answered with a REFUSE frame of
its reason; on a full transmit queue NOT_SENT is reported instead (R20). R19, R135: the claim on the action queue and the request for
a REFUSE may be left to be taken later in the tick, the one handed on first before the others, each in the state that its block then
finds: after a teardown the claim is answered NOT MEMBER and the request is discarded, with no report. That a REFUSE comes before the
claim of a later frame is the model's reading (log 25). -/
def Obligations.InboundAction : Prop :=
  (∀ (s : State) (f : PartialFrame) (samples : List Bool) (sender : Station) (a : ActionFields),
    s.line.receiver = .receive → s.line.frame = some f →
    takeSamples f samples = .valid { sender := sender, payload := .action a } → sender ≠ s.number →
    ∃ t u, exec (.frameCompletion (.whole samples)) s = .next t ∧ t.line.receiver = .wait
      ∧ exec (.frameCompletion (.handOver samples)) s = .next u ∧ u.line = t.line
      ∧ (s.member.state ≠ .member ∨ s.passes a.selector = false → t = s.withLine t.line ∧ u = t)
      ∧ (s.member.state = .member → s.passes a.selector = true →
          u = (s.withLine t.line).withOwed { s.owed with exchange := s.owed.exchange ++ [.claim sender (.action a)] }
          ∧ (s.owed.exchange = [] → (s.withLine t.line).Inserts t a sender .remote fun v reason =>
              if v.cont.queue.length < 8 then v.withCont { v.cont with
                queue := v.cont.queue ++ [.fresh (.refuse sender a.serial reason) false none] }
              else v.report (.notSent .refuse (.action { origin := sender, serial := a.serial })))))
  ∧ (∀ (s : State) (sender : Station) (a : ActionFields) (rest : List HandedOn),
    s.owed.exchange = .claim sender (.action a) :: rest →
    let u := s.withOwed { s.owed with exchange := rest }
    ∃ t, exec (.frameCompletion .next) s = .next t
      ∧ (s.member.state ≠ .member → t = u)
      ∧ (s.member.state = .member → u.Inserts t a sender .remote fun v reason => v.withOwed { v.owed with
          exchange := .refusal { origin := sender, serial := a.serial } reason :: rest }))
  ∧ ∀ (s : State) (id : ActionId) (reason : Byte) (rest : List HandedOn), s.owed.exchange = .refusal id reason :: rest →
    let u := s.withOwed { s.owed with exchange := rest }
    (s.member.state ≠ .member → exec (.frameCompletion .next) s = .next u)
    ∧ (s.member.state = .member → s.cont.queue.length < 8 → exec (.frameCompletion .next) s = .next (u.withCont { s.cont with
        queue := s.cont.queue ++ [.fresh (.refuse id.origin id.serial reason) false none] }))
    ∧ (s.member.state = .member → 8 ≤ s.cont.queue.length →
        exec (.frameCompletion .next) s = .next (u.report (.notSent .refuse (.action id))))

/-- R109, R110, R112, R138, R139: a valid AMEND or CANCEL of another station in MEMBER whose selector passes: an amendment of a
repeating entry sets its pending values, a cancellation removes the entry, an id that is not queued is ignored, and an amendment of
a one-shot or with a bad period is answered with a REFUSE frame. The claim may be left to be taken later in the tick, and so may the
request for a REFUSE that it makes (R135, R137; `InboundAction` says what becomes of the request); that the request comes before the
claim of a later frame is the model's reading (log 25). R135: outside MEMBER, or when its selector does not pass, the frame is passed
over, with no report. -/
def Obligations.InboundAmendAndCancel : Prop :=
  (∀ (s : State) (f : PartialFrame) (samples : List Bool) (sender : Station) (selector serial : Half),
    s.line.receiver = .receive → s.line.frame = some f → s.member.state = .member → sender ≠ s.number →
    s.passes selector = true →
    let named (x : Entry) : Bool := decide (x.id = { origin := sender, serial := serial })
    (∀ p, p = .cancel selector serial ∨ (∃ new, p = .amend selector serial new) →
      takeSamples f samples = .valid { sender := sender, payload := p } →
      ∃ t, exec (.frameCompletion (.handOver samples)) s = .next t ∧ t.line.receiver = .wait
        ∧ t = (s.withLine t.line).withOwed { s.owed with exchange := s.owed.exchange ++ [.claim sender p] })
    ∧ (s.owed.exchange = [] → takeSamples f samples = .valid { sender := sender, payload := .cancel selector serial } →
      ∃ t, exec (.frameCompletion (.whole samples)) s = .next t ∧ t.line.receiver = .wait
        ∧ t = (s.withLine t.line).withSched { s.sched with queue := s.sched.queue.filter (fun x => !named x) })
    ∧ ∀ new, s.owed.exchange = [] → takeSamples f samples = .valid { sender := sender, payload := .amend selector serial new } →
      ∃ t, exec (.frameCompletion (.whole samples)) s = .next t ∧ t.line.receiver = .wait
        ∧ ((∀ x ∈ s.sched.queue, named x = false) → t = s.withLine t.line)
        ∧ (∀ before e after, s.sched.queue = before ++ e :: after → named e = true →
            (∀ x ∈ before ++ after, named x = false) → e.rep.isSome = true →
            16 ≤ new.period.toNat → new.period.toNat < 2 ^ 31 →
            t = (s.withLine t.line).withSched
              { s.sched with queue := before ++ { e with pendingRep := some new } :: after })
        ∧ (∀ before e after, s.sched.queue = before ++ e :: after → named e = true → (∀ x ∈ before, named x = false) →
            e.rep = none → s.cont.queue.length < 8 →
            t = (s.withLine t.line).withCont { s.cont with
              queue := s.cont.queue ++ [.fresh (.refuse sender serial 5) false none] })
        ∧ (∀ before e after, s.sched.queue = before ++ e :: after → named e = true → (∀ x ∈ before, named x = false) →
            e.rep.isSome = true → ¬ (16 ≤ new.period.toNat ∧ new.period.toNat < 2 ^ 31) → s.cont.queue.length < 8 →
            t = (s.withLine t.line).withCont { s.cont with
              queue := s.cont.queue ++ [.fresh (.refuse sender serial 3) false none] }))
  ∧ (∀ (s : State) (sender : Station) (selector serial : Half) (rest : List HandedOn), s.member.state = .member →
    s.owed.exchange = .claim sender (.cancel selector serial) :: rest →
    exec (.frameCompletion .next) s = .next ((s.withOwed { s.owed with exchange := rest }).withSched
      { s.sched with queue := s.sched.queue.filter (fun x => x.id ≠ { origin := sender, serial := serial }) }))
  ∧ (∀ (s : State) (sender : Station) (selector serial : Half) (new : Repeat) (rest : List HandedOn), s.member.state = .member →
    s.owed.exchange = .claim sender (.amend selector serial new) :: rest →
    let id : ActionId := { origin := sender, serial := serial }
    let ok := 16 ≤ new.period.toNat ∧ new.period.toNat < 2 ^ 31
    let u := s.withOwed { s.owed with exchange := rest }
    ((∀ x ∈ s.sched.queue, x.id ≠ id) → exec (.frameCompletion .next) s = .next u)
    ∧ ∀ before e after, s.sched.queue = before ++ e :: after → e.id = id → (∀ x ∈ before ++ after, x.id ≠ id) →
      (e.rep.isSome = true → ok → exec (.frameCompletion .next) s = .next (u.withSched
        { s.sched with queue := before ++ { e with pendingRep := some new } :: after }))
      ∧ (e.rep = none → exec (.frameCompletion .next) s = .next (u.withOwed { s.owed with exchange := .refusal id 5 :: rest }))
      ∧ (e.rep.isSome = true → ¬ ok →
          exec (.frameCompletion .next) s = .next (u.withOwed { s.owed with exchange := .refusal id 3 :: rest })))
  ∧ (∀ (s : State) (sender : Station) (p : Payload) (rest : List HandedOn), s.member.state ≠ .member →
    s.owed.exchange = .claim sender p :: rest →
    exec (.frameCompletion .next) s = .next (s.withOwed { s.owed with exchange := rest }))
  ∧ ∀ (s : State) (f : PartialFrame) (event : FrameEvent) (samples : List Bool) (sender : Station) (p : Payload)
    (selector serial : Half), State.samplesOf event samples → s.line.receiver = .receive → s.line.frame = some f →
    takeSamples f samples = .valid { sender := sender, payload := p } → sender ≠ s.number →
    p = .cancel selector serial ∨ (∃ new, p = .amend selector serial new) →
    s.member.state ≠ .member ∨ s.passes selector = false →
    ∃ t, exec (.frameCompletion event) s = .next t ∧ t.line.receiver = .wait ∧ t = s.withLine t.line

/-- R140, R156, R158: a valid EVENT in MEMBER whose selector passes makes a remote log record, which a full log discards under STOP and
takes in place of its oldest under WRAP; a valid REFUSE is reported when its
origin is this station, with the reason as received, and discarded otherwise. R135, R158: outside MEMBER either is passed over. -/
def Obligations.RemoteEventAndRefuse : Prop :=
  (∀ (s : State) (f : PartialFrame) (event : FrameEvent) (samples : List Bool) (sender : Station),
    State.samplesOf event samples → s.line.receiver = .receive → s.line.frame = some f → s.member.state = .member →
    sender ≠ s.number →
    (∀ selector channel edge stamp sequence,
      takeSamples f samples = .valid { sender := sender, payload := .event selector channel edge stamp sequence } →
      ∃ t, exec (.frameCompletion event) s = .next t ∧ t.line.receiver = .wait
        ∧ (s.passes selector = false → t = s.withLine t.line)
        ∧ (s.passes selector = true → (s.withLine t.line).Logs t {
            station := sender
            channel := .input channel
            edge := match edge with
              | .rise => .rise
              | .fall => .fall
            stamp := stamp
            base := .clusterTime
            synced := true
            remote := some sequence }))
    ∧ ∀ origin serial reason,
      takeSamples f samples = .valid { sender := sender, payload := .refuse origin serial reason } →
      ∃ t, exec (.frameCompletion event) s = .next t ∧ t.line.receiver = .wait
        ∧ t = (s.withLine t.line).withPort { s.port with reports := t.port.reports, attn := t.port.attn }
        ∧ (origin ≠ s.number → t.port = s.port)
        ∧ (origin = s.number → t.port.reports = arrive s.port.reports
            { detail := .refused { origin := s.number, serial := serial } sender reason, stamp := s.stampTime,
              unsynced := s.unsynced }))
  ∧ ∀ (s : State) (f : PartialFrame) (event : FrameEvent) (samples : List Bool) (sender : Station) (p : Payload),
    State.samplesOf event samples → s.line.receiver = .receive → s.line.frame = some f → s.member.state ≠ .member →
    sender ≠ s.number → takeSamples f samples = .valid { sender := sender, payload := p } → p.kind = .event ∨ p.kind = .refuse →
    ∃ t, exec (.frameCompletion event) s = .next t ∧ t.line.receiver = .wait ∧ t = s.withLine t.line

/-- R12, R17, R31, R34, R143: a success removes the record in transmission. With the self-delivery flag, in MEMBER, a frame whose
selector passes is applied as an inbound one: an ACTION is inserted with source SELF-DELIVERY (R96–R103), an AMEND sets the pending
values (R109, R110), a CANCEL removes the entry (R112), and a refusal is reported with this station as the refusing one. A void
record, one without the flag, or one outside MEMBER does nothing more. -/
def Obligations.TransmissionSuccess : Prop :=
  ∀ (s : State) (before after : List TxRecord) (r : TxRecord), s.line.receiver = .send →
    s.cont.queue = before ++ r :: after → r.inTransmission = true → (∀ x ∈ before ++ after, x.inTransmission = false) →
    ∃ t, exec .transmissionSuccess s = .next t
      ∧ t.line = { s.line with
          receiver := match s.line.afterSend with
            | .inStep => .wait
            | .off => .off
            | .seek => .seek
          sof := none, frame := none, sending := [], afterSend := .inStep, dominantRun := 0, recessiveRun := 0 }
      ∧ t.cont = { s.cont with queue := before ++ after }
      ∧ (let u := (s.withLine t.line).withCont t.cont
         let id (serial : Half) : ActionId := { origin := s.number, serial := serial }
         let refused (serial : Half) (v : State) (reason : Byte) : State := v.report (.refused (id serial) s.number reason)
         (r.isVoid = true ∨ r.selfDelivery = false ∨ s.member.state ≠ .member → t = u)
         ∧ (r.isVoid = false → r.selfDelivery = true → s.member.state = .member →
           (∀ a, r.payload = .action a →
             (s.passes a.selector = false → t = u)
             ∧ (s.passes a.selector = true → u.Inserts t a s.number .selfDelivery (refused a.serial)))
           ∧ (∀ selector serial new, r.payload = .amend selector serial new →
             (s.passes selector = false ∨ (∀ x ∈ s.sched.queue, x.id ≠ id serial) → t = u)
             ∧ ∀ first e rest, s.passes selector = true → s.sched.queue = first ++ e :: rest → e.id = id serial →
               (∀ x ∈ first ++ rest, x.id ≠ id serial) →
               (e.rep = none → t = refused serial u 5)
               ∧ (e.rep.isSome = true → ¬ (16 ≤ new.period.toNat ∧ new.period.toNat < 2 ^ 31) → t = refused serial u 3)
               ∧ (e.rep.isSome = true → 16 ≤ new.period.toNat → new.period.toNat < 2 ^ 31 →
                   t = u.withSched { s.sched with queue := first ++ { e with pendingRep := some new } :: rest }))
           ∧ ∀ selector serial, r.payload = .cancel selector serial →
             (s.passes selector = false → t = u)
             ∧ (s.passes selector = true →
                 t = u.withSched { s.sched with queue := s.sched.queue.filter (fun x => x.id ≠ id serial) })))

/-- R12, R29, R30, R34: a mismatch at a bit sent recessive fails the attempt: the count is raised and the record offered again,
or at the eighth failure removed with TX_ABANDONED; a void record is removed in silence. The receiver goes on with the other
station's frame, whose bits so far it holds. R13: the dominant run that the mismatching bit belongs to goes on, but for OFF (R17). -/
def Obligations.ReadbackMismatch : Prop :=
  ∀ (s : State) (bit : Nat) (before after : List TxRecord) (r : TxRecord) (f : PartialFrame), s.line.receiver = .send →
    (bitsOfFrame s.line.sending)[bit]? = some true → s.cont.queue = before ++ r :: after → r.inTransmission = true →
    (∀ x ∈ before ++ after, x.inTransmission = false) →
    takeSamples (.awaiting []) ((bitsOfFrame s.line.sending).take bit) = .more f → f.bits ≠ [] →
    ∃ t, exec (.readbackMismatch bit) s = .next t
      ∧ t = ((s.withLine t.line).withCont t.cont).withPort { s.port with reports := t.port.reports, attn := t.port.attn }
      ∧ (s.line.afterSend = .inStep → f.bits.length < 9 → t.line.receiver = .receive ∧ t.line.sof = s.line.sof
          ∧ t.line.frame = some { f with bits := f.bits ++ [false] })
      ∧ (s.line.afterSend = .inStep → f.bits.length = 9 → t.line.receiver = .seek ∧ t.line.frame = none)
      ∧ (s.line.afterSend = .off → t.line.receiver = .off ∧ t.line.dominantRun = 0)
      ∧ (s.line.afterSend = .seek → t.line.receiver = .seek)
      ∧ (s.line.afterSend ≠ .off → t.line.dominantRun = ((bitsOfFrame s.line.sending).take bit ++ [false]).foldl
          (fun n recessive => if recessive then 0 else n + 1) s.line.dominantRun)
      ∧ (r.isVoid = true → t.cont = { s.cont with queue := before ++ after } ∧ t.port = s.port)
      ∧ (r.isVoid = false → r.attempts < 7 →
          t.cont = { s.cont with
            queue := before ++ { r with attempts := r.attempts + 1, inTransmission := false } :: after }
          ∧ t.port = s.port)
      ∧ (r.isVoid = false → r.attempts = 7 → t.cont = { s.cont with queue := before ++ after }
          ∧ t.port.reports = arrive s.port.reports
              { detail := .txAbandoned r.kind (match r.payload with
                  | .beacon _ _ => .none
                  | .action a => .action { origin := s.number, serial := a.serial }
                  | .amend _ serial _ => .action { origin := s.number, serial := serial }
                  | .cancel _ serial => .action { origin := s.number, serial := serial }
                  | .refuse origin serial _ => .action { origin := origin, serial := serial }
                  | .event _ _ _ _ sequence => .reflex (r.reflexEntry.getD 0) (some sequence)),
                stamp := s.stampTime, unsynced := s.unsynced })

/-- R13, R14: a stuck line discards the frame in hand uncounted, mutes the station and makes one LINE report; its end takes the
receiver to SEEK; 48 bit times of recessive clear the mute with a LINE report. What becomes of a frame in SEND is the model's
reading (log 11): the attempt fails first by R29, R30 and R34, no receive error is counted, and the receiver of a STOPPED station goes
to OFF. -/
def Obligations.StuckLine : Prop :=
  ∀ s : State,
    (s.line.receiver = .seek ∨ s.line.receiver = .wait ∨ s.line.receiver = .receive → ∃ t, exec .lineStuck s = .next t
      ∧ t = ((s.withLine t.line).withCont { queue := s.cont.queue, idle := false, slot := none, offered := none }).withPort
          { s.port with reports := t.port.reports, attn := t.port.attn }
      ∧ t.line.receiver = .stuck ∧ t.line.muted = true ∧ t.line.frame = none ∧ t.line.sof = none
      ∧ t.line.errors = s.line.errors
      ∧ (s.line.muted = true → t.port = s.port)
      ∧ (s.line.muted = false → t.port.reports = arrive s.port.reports
          { detail := .line .stuck, stamp := s.stampTime, unsynced := s.unsynced }))
    ∧ (s.line.receiver = .send → ∀ before r after, s.cont.queue = before ++ r :: after → r.inTransmission = true →
        (∀ x ∈ before ++ after, x.inTransmission = false) → r.attempts ≤ 7 →
        let abandoned := if r.isVoid = false ∧ r.attempts = 7 then [s.stamped (.txAbandoned r.kind (State.abandonedDetail s.number r))]
          else []
        let stuck := if s.line.afterSend ≠ .off ∧ s.line.muted = false then [s.stamped (.line .stuck)] else []
        ∃ t, exec .lineStuck s = .next t
          ∧ t = ((s.withLine t.line).withCont t.cont).withPort { s.port with reports := t.port.reports, attn := t.port.attn }
          ∧ t.cont.queue = (if r.isVoid = true ∨ r.attempts = 7 then before ++ after
              else before ++ { r with attempts := r.attempts + 1, inTransmission := false } :: after)
          ∧ (s.line.afterSend = .off → t.line.receiver = .off ∧ t.line.muted = s.line.muted
              ∧ t.cont = { s.cont with queue := t.cont.queue })
          ∧ (s.line.afterSend ≠ .off → t.line.receiver = .stuck ∧ t.line.muted = true
              ∧ t.cont = { queue := t.cont.queue, idle := false, slot := none, offered := none })
          ∧ t.line.frame = none ∧ t.line.sof = none ∧ t.line.errors = s.line.errors
          ∧ t.port.reports = (abandoned ++ stuck).foldl arrive s.port.reports)
    ∧ (s.line.receiver = .stuck →
        exec .stuckRunEnd s = .next (s.withLine { s.line with receiver := .seek, dominantRun := 0, recessiveRun := 0 }))
    ∧ (s.line.muted = true → s.line.receiver = .wait ∨ s.line.receiver = .seek → ∃ t, exec .lineReleased s = .next t
        ∧ t = (s.withLine { s.line with muted := false, recessiveRun := 48 }).withPort
            { s.port with reports := t.port.reports, attn := t.port.attn }
        ∧ t.port.reports = arrive s.port.reports
            { detail := .line .released, stamp := s.stampTime, unsynced := s.unsynced })

/-! ### The service port -/

/-- R168–R171: a transaction begins with the pending response handed out, or with BUSY while the port is busy; at its end a busy
one is discarded, and any other is judged by its received bytes. Each byte is sent most significant bit first in both directions, a
byte cut off is no whole byte, and 00h follows the response. R168, R186: a response is the command code, the response code with its
number, the data length, the data, and the check byte that makes the sum of all 0. That a refused envelope keeps the port busy until the next tick is the
model's reading of R171 (log 6). -/
def Obligations.Transactions : Prop :=
  (∀ s : State,
    (s.port.transaction = none →
      (s.port.work ≠ .idle → exec .transactionBegin s = .next (s.withPort { s.port with
        transaction := some { busy := true, sdo := [0x00, 0x01, 0x00, 0xFF] } }))
      ∧ (s.port.work = .idle → ∀ r, s.port.response = some r →
        let code : Byte := match r.code with
          | .ok => 0x00 | .busy => 0x01 | .badCheck => 0x02 | .badCommand => 0x03 | .badLength => 0x04 | .badState => 0x05
          | .badParam => 0x06 | .queueFull => 0x07 | .txFull => 0x08 | .notFound => 0x09 | .notRepeating => 0x0A
          | .badSerial => 0x0B | .badLine => 0x0C | .late => 0x0D
        ∃ check : Byte, r.command + code + BitVec.ofNat 8 r.data.length + r.data.sum + check = 0
          ∧ exec .transactionBegin s = .next (s.withPort { s.port with
              transaction := some { busy := false, sdo := r.command :: code :: BitVec.ofNat 8 r.data.length :: (r.data ++ [check]) }
              response := none })))
    ∧ ∀ (tr : Transaction) (bits cut : List Bool), s.port.transaction = some tr →
      (tr.busy = true → exec (.transactionEnd bits cut) s = .next (s.withPort { s.port with transaction := none }))
      ∧ (∀ c, tr.busy = false → judgeEnvelope (receivedBytes (bits ++ cut)) = .ok c → exec (.transactionEnd bits cut) s = .next
          (s.withPort { s.port with transaction := none, work := .current c 0 }))
      ∧ (∀ r, tr.busy = false → judgeEnvelope (receivedBytes (bits ++ cut)) = .error r → exec (.transactionEnd bits cut) s = .next
          (s.withPort { s.port with transaction := none, work := .refused r })))
  ∧ (∀ (bytes : List Byte) (cut : List Bool), cut.length < 8 →
    receivedBytes (bytes.flatMap (fun b => [b.getLsbD 7, b.getLsbD 6, b.getLsbD 5, b.getLsbD 4, b.getLsbD 3, b.getLsbD 2,
      b.getLsbD 1, b.getLsbD 0]) ++ cut) = bytes)
  ∧ ∀ (tr : Transaction) (clock : Nat),
    (∀ b, tr.sdo[clock / 8]? = some b → tr.sdoLevel clock = b.getLsbD (7 - clock % 8))
    ∧ (tr.sdo.length ≤ clock / 8 → tr.sdoLevel clock = false)

/-- R168, R171, R186: the first length + 3 bytes of what was received are the packet. One with a code of a command, its parameters and a
check byte that makes the sum 0 is taken, whatever follows it; fewer bytes are BAD_LENGTH, then a sum other than 0 is BAD_CHECK, a
code of no command BAD_COMMAND, and parameters that the command does not take BAD_LENGTH. The codes, the parameter lengths and the
parameters are those of R186, the length of POST going by its control byte, whose bit 7 is ignored. -/
def Obligations.PacketJudged : Prop :=
  (∀ (code : Byte) (params rest : List Byte) (c : Command), params.length < 256 → commandOf code params = some (some c) →
    judgeEnvelope (withCheck ([code, BitVec.ofNat 8 params.length] ++ params) ++ rest) = .ok c)
  ∧ (∀ (code check : Byte) (params rest : List Byte), params.length < 256 →
      code + BitVec.ofNat 8 params.length + params.sum + check ≠ 0 →
      judgeEnvelope ([code, BitVec.ofNat 8 params.length] ++ params ++ [check] ++ rest)
        = .error { command := code, code := .badCheck, data := [] })
  ∧ (∀ (code length : Byte) (rest : List Byte), rest.length < length.toNat + 1 →
      judgeEnvelope (code :: length :: rest) = .error { command := code, code := .badLength, data := [] })
  ∧ judgeEnvelope [] = .error { command := 0x00, code := .badLength, data := [] }
  ∧ (∀ code : Byte, judgeEnvelope [code] = .error { command := code, code := .badLength, data := [] })
  ∧ (∀ (code : Byte) (params rest : List Byte), params.length < 256 →
      let packet := withCheck ([code, BitVec.ofNat 8 params.length] ++ params) ++ rest
      (commandOf code params = none → judgeEnvelope packet = .error { command := code, code := .badCommand, data := [] })
      ∧ (commandOf code params = some none → judgeEnvelope packet = .error { command := code, code := .badLength, data := [] }))
  ∧ (∀ (code : Byte) (params : List Byte), (commandOf code params = none ↔
      code ∉ [0x00, 0x01, 0x02, 0x03, 0x04, 0x10, 0x11, 0x12, 0x13, 0x20, 0x21, 0x22, 0x23, 0x24]))
  ∧ (∀ (code : Byte) (length : Nat) (params : List Byte), (code, length) ∈ [(0x00, 0), (0x01, 0), (0x02, 172), (0x03, 0), (0x04, 0),
      (0x11, 10), (0x12, 5), (0x13, 3), (0x20, 1), (0x21, 1), (0x22, 0), (0x23, 0), (0x24, 2)] → params.length ≠ length →
      commandOf code params = some none)
  ∧ (commandOf 0x00 [] = some (some .nop) ∧ commandOf 0x01 [] = some (some .status) ∧ commandOf 0x03 [] = some (some .start)
    ∧ commandOf 0x04 [] = some (some .stop) ∧ commandOf 0x22 [] = some (some .readPeers)
    ∧ commandOf 0x23 [] = some (some .snapshot))
  ∧ (∀ block : List Byte, block.length = 172 → commandOf 0x02 block = some (some (.configure block)))
  ∧ (∀ x y : Byte, commandOf 0x20 [x] = some (some (.readLog x)) ∧ commandOf 0x21 [x] = some (some (.readReports x))
    ∧ commandOf 0x24 [x, y] = some (some (.drive x y)))
  ∧ (∀ (scope : Byte) (selector serial : Half) (new : Repeat),
    commandOf 0x11 ([scope] ++ halfBytes selector ++ halfBytes serial ++ timeBytes new.period ++ [new.count])
      = some (some (.amend scope selector serial new))
    ∧ commandOf 0x12 ([scope] ++ halfBytes selector ++ halfBytes serial) = some (some (.cancel scope selector serial))
    ∧ commandOf 0x13 ([scope] ++ halfBytes serial) = some (some (.find scope serial)))
  ∧ (∀ (scope : Byte) (a : ActionFields) (unused : Bool), a.width.isSome = decide (a.kind = .pulse) →
    let control := BitVec.ofNat 8 (a.line.val + 8 * a.kind.code + 32 * a.notify.toNat + 64 * a.rep.isSome.toNat + 128 * unused.toNat)
    commandOf 0x10 ([scope] ++ halfBytes a.selector ++ halfBytes a.serial ++ timeBytes a.due ++ [control]
        ++ (a.width.map halfBytes).getD [] ++ (a.rep.map fun r => timeBytes r.period ++ [r.count]).getD [])
      = some (some (.post scope a)))
  ∧ ∀ params : List Byte,
    (params.length < 10 → commandOf 0x10 params = some none)
    ∧ ∀ control, params[9]? = some control →
      params.length ≠ 10 + (if control.toNat / 8 % 4 = 3 then 2 else 0) + (if control.getLsbD 6 then 5 else 0) →
      commandOf 0x10 params = some none

/-- R174: NOP answers OK with no data and changes nothing; STATUS answers OK and changes nothing, and R186 lays out its 17 bytes;
the bits that R186 leaves unnamed are sent as 0 by the model's choice (log 23). -/
def Obligations.NopAndStatus : Prop :=
  ∀ (s : State) (n : Nat), 1 ≤ n → n ≤ 16 →
    (s.port.work = .current .nop n → exec .nop s = .next (s.withPort { s.port with
      response := some { command := 0x00, code := .ok, data := [] }, work := .idle }))
    ∧ (s.port.work = .current .status n →
      let station : Byte := match s.member.number with
        | none => 0x80
        | some number => BitVec.ofNat 8 number
      let round : Time := match s.clock.cluster with
        | none => 0
        | some now => now >>> s.config.k
      let data := [0x12, 0x3A, station, BitVec.ofNat 8 s.member.state.code,
          BitVec.ofNat 8 (s.member.alone.toNat + 2 * s.line.muted.toNat + 4 * s.valid.toNat)]
        ++ timeBytes (s.clock.cluster.getD 0) ++ timeBytes round
        ++ [BitVec.ofNat 8 s.sched.queue.length, BitVec.ofNat 8 s.cont.queue.length, BitVec.ofNat 8 s.cap.log.length,
            BitVec.ofNat 8 s.port.reports.length]
      exec .status s = .next (s.withPort { s.port with
        response := some { command := 0x01, code := .ok, data := data }, work := .idle }))

/-- R76, R178: CONFIGURE in UNCONFIGURED or READY holds a block whose fields are all in range and makes the station READY;
otherwise BAD_PARAM, and the held block stays. R178, R187: a block is accepted exactly when every field lies in its range and every
code names a value, and what its bytes say. -/
def Obligations.Configure : Prop :=
  (∀ (block : List Byte) (c : ConfigBlock), configOf block = some c → c.inRange = true)
  ∧ (∀ l : List Byte,
    let b (i : Nat) : Nat := (l.getD i 0).toNat
    let half (i : Nat) : Nat := b i + 256 * b (i + 1)
    let kind (n : Nat) : ActionKind := if n = 0 then .set else if n = 1 then .clear else if n = 2 then .toggle else .pulse
    ((configOf l).isSome = true ↔
      b 0 < 16 ∧ b 1 < 4 ∧ 10 ≤ b 2 ∧ b 2 ≤ 20 ∧ 1 ≤ b 4 ∧ b 4 ≤ b 5 ∧ 16 ≤ half 6 ∧ b 4 ≤ half 6 ∧ 2 ≤ b 8 ∧ b 8 ≤ 15
      ∧ 2 ≤ b 9 ∧ b 9 ≤ 15 ∧ 2 ≤ b 10 ∧ b 10 ≤ 7 ∧ 1 ≤ b 15 ∧ b 15 ≤ 64
      ∧ (∀ n < 8, b (16 + n) % 16 ≠ 0) ∧ ∀ n < 16, b (44 + 8 * n) / 16 % 4 ≠ 3)
    ∧ ∀ c, configOf l = some c →
      c.number.val = b 0
      ∧ c.rate = (if b 1 = 0 then .kbit125 else if b 1 = 1 then .kbit250 else if b 1 = 2 then .kbit500 else .kbit1000)
      ∧ c.k = b 2 ∧ c.linkDelay.toNat = b 3 ∧ c.syncBound.toNat = b 4 ∧ c.maxStep.toNat = b 5 ∧ c.outlierBound.toNat = half 6
      ∧ c.listenRounds = b 8 ∧ c.lostLimit = b 9 ∧ c.splitLimit = b 10
      ∧ c.latePolicy = (if b 11 % 2 = 0 then .fire else .drop) ∧ c.logPolicy = (if b 11 / 2 % 2 = 0 then .stop else .wrap)
      ∧ c.enableMask.toNat = b 12 ∧ c.defaults.toNat = b 13 ∧ c.resync.toNat = b 14 ∧ c.threshold = b 15
      ∧ (∀ n : Fin 8, (c.inputs[n]).filter = b (16 + n.val) % 16
          ∧ (c.inputs[n]).mode = (let m := b (16 + n.val) / 16 % 4
              if m = 0 then .off else if m = 1 then .rising else if m = 2 then .falling else .both))
      ∧ (∀ n : Fin 4, (c.windows[n]).value.toNat = half (24 + 5 * n.val) ∧ (c.windows[n]).mask.toNat = half (26 + 5 * n.val)
          ∧ (c.windows[n]).enabled = decide (b (28 + 5 * n.val) % 2 = 1))
      ∧ ∀ n : Fin 16,
          let x := c.reflexes[n]
          let i := 44 + 8 * n.val
          x.enabled = decide (128 ≤ b i) ∧ x.input.val = b i % 8 ∧ x.edge = (if b i / 8 % 2 = 0 then .rise else .fall)
          ∧ x.effect = (if b i / 16 % 4 = 0 then .publish else if b i / 16 % 4 = 1 then .post else .toSelf)
          ∧ x.selector.toNat = half (i + 1) ∧ x.delay.toNat = half (i + 3) ∧ x.line.val = b (i + 5) % 8
          ∧ x.kind = kind (b (i + 5) / 8 % 4) ∧ x.width.toNat = half (i + 6))
  ∧ ∀ (s : State) (n : Nat) (block : List Byte), 1 ≤ n → n ≤ 16 → s.port.work = .current (.configure block) n →
    s.member.state = .unconfigured ∨ s.member.state = .ready →
    (∀ c, configOf block = some c → exec .configure s = .next ((s.withMember { s.member with state := .ready }).withPort
      { s.port with block := some c, response := some { command := 0x02, code := .ok, data := [] }, work := .idle }))
    ∧ (configOf block = none → exec .configure s = .next (s.withPort { s.port with
        response := some { command := 0x02, code := .badParam, data := [] }, work := .idle }))

/-- R77, R78, R129, R133, R152: START enters LISTEN. From READY the blocks take the fields of the held block, the enabled lines
are driven at their default levels and the windows are formed; from STOPPED the fields and the lines stay. R17, R34, R35: a void frame
still in SEND stays there, and at its success or its mismatch its record is gone and the receiver goes to SEEK, where, R13, the
dominant run of the mismatching bit goes on. -/
def Obligations.Start : Prop :=
  ∀ (s : State) (n : Nat) (c : ConfigBlock), 1 ≤ n → n ≤ 16 → s.port.work = .current .start n →
    (s.member.state = .ready ∧ s.port.block = some c) ∨ (s.member.state = .stopped ∧ s.cfg = some c
      ∧ s.member.number = some c.number) →
    ∃ t, exec .start s = .next t
      ∧ t.member = { state := .listen, alone := true, cause := some .start, number := some c.number }
      ∧ t.cfg = some c
      ∧ t.clock = { ticks := s.clock.ticks, cluster := none, slew := 0, spacing := 0, listen := some 0 }
      ∧ (s.line.receiver ≠ .send → t.line.receiver = .seek) ∧ t.line.errors = 0 ∧ t.line.muted = false
      ∧ (s.line.receiver = .send → t.line = { s.line with errors := 0, muted := false, afterSend := .seek }
        ∧ ∀ before r after, s.cont.queue = before ++ r :: after → r.inTransmission = true → r.isVoid = true →
          (∀ x ∈ before ++ after, x.inTransmission = false) →
          let ended (run : Nat) : State := (t.withLine { t.line with
            receiver := .seek, sof := none, frame := none, sending := [], afterSend := .inStep, dominantRun := run
            recessiveRun := 0 }).withCont { t.cont with queue := before ++ after }
          exec .transmissionSuccess t = .next (ended 0)
          ∧ ∀ bit, (bitsOfFrame s.line.sending)[bit]? = some true → exec (.readbackMismatch bit) t = .next (ended
            (((bitsOfFrame s.line.sending).take bit ++ [false]).foldl (fun n recessive => if recessive then 0 else n + 1)
              s.line.dominantRun)))
      ∧ t.cont = { queue := s.cont.queue, idle := false, slot := none, offered := none }
      ∧ (∀ i : Fin 16, t.sync.peers[i] = { PeerRecord.cleared with state := if i = c.number then .self else .absent })
      ∧ t.sched = s.sched
      ∧ (s.member.state = .ready → ∀ l : Fin 8, t.out.lines[l]
          = if c.enableMask.getLsbD l then .driven (c.defaults.getLsbD l) none else .released)
      ∧ (s.member.state = .stopped → t.out = s.out ∧ t.exch = s.exch)
      ∧ (s.member.state = .ready → t.exch.windows
          = { value := 0xFF00 + BitVec.ofNat 16 c.number.val, mask := 0xFFFF, enabled := true }
            :: { value := 0xFFFF, mask := 0xFFFF, enabled := true } :: c.windows.toList)
      ∧ t.cap = { s.cap with filters := some (Vector.ofFn fun i => { level := s.pins.getLsbD i, run := 0, first := none }) }
      ∧ t.port.reports = arrive s.port.reports
          { detail := .state s.member.state .listen .start, stamp := s.clock.ticks, unsynced := true }
      ∧ t.port.response = some { command := 0x03, code := .ok, data := [] } ∧ t.port.work = .idle
      ∧ t.port.block = s.port.block ∧ t.port.transaction = s.port.transaction ∧ t.pins = s.pins

/-- R89–R91, R116, R131: STOP in LISTEN, JOINING or MEMBER makes the station STOPPED; cluster time is gone, the action queue is
flushed with its report after the STATE report, the lines go to their default levels, the filters end, the receiver goes to OFF
unless a frame is in SEND. What waits behind an insertion is reported before the STATE report (log 17), and so is the LINE_ERRORS report
of a boundary taken before (R43), where its turn has not come (log 7). -/
def Obligations.Stop : Prop :=
  ∀ (s : State) (n : Nat), 1 ≤ n → n ≤ 16 → s.port.work = .current .stop n → s.active = true → s.PhaseOk →
    ∃ t, exec .stop s = .next t
      ∧ t.member = { state := .stopped, alone := (if s.member.state = .listen then s.member.alone else true),
                     cause := some .stop, number := s.member.number }
      ∧ t.clock.ticks = s.clock.ticks ∧ t.clock.cluster = none ∧ t.clock.listen = none
      ∧ (s.line.receiver ≠ .send → t.line.receiver = .off ∧ t.line.frame = none)
      ∧ (s.line.receiver = .send → t.line.receiver = .send ∧ t.line.sending = s.line.sending ∧ t.line.afterSend = .off)
      ∧ t.line.errors = 0 ∧ t.line.muted = false
      ∧ t.cont.idle = false ∧ t.cont.slot = none ∧ t.cont.offered = none
      ∧ t.sched = { s.sched with queue := [] }
      ∧ (∀ l : Fin 8, t.out.lines[l] =
          match s.out.lines[l] with
          | .released => .released
          | .driven _ _ => .driven (s.defaultHigh l) none)
      ∧ t.cap = { s.cap with filters := none }
      ∧ (s.member.state ≠ .listen → t.cont.queue = (s.cont.queue.filter (·.inTransmission)).map (fun r => { r with isVoid := true })
          ∧ ∀ i : Fin 16, t.sync.peers[i] = if (s.sync.peers[i]).state = .self then s.sync.peers[i] else PeerRecord.cleared)
      ∧ (s.member.state = .listen → t.cont.queue = s.cont.queue ∧ t.sync = s.sync)
      ∧ t.owed = { s.owed with
          boundary := false, fireFrom := none
          insertions := if s.member.state = .listen then s.owed.insertions else
            s.owed.insertions.map fun h => { h with behind := [] } }
      ∧ t.exch = s.exch ∧ t.cfg = s.cfg ∧ t.pins = s.pins
      ∧ t.port.block = s.port.block ∧ t.port.transaction = s.port.transaction
      ∧ t.port.reports = (s.stoppedReports .stop).foldl arrive s.port.reports
      ∧ t.port.response = some { command := 0x04, code := .ok, data := [] } ∧ t.port.work = .idle

/-- R95–R103, R141, R145, R175: POST with local scope in MEMBER. An action due after now is placed and answered OK; one of its
id that is queued is replaced, whatever the count; a bad scope, a reflex serial, a line outside the mask, a bad field and a full
queue are refused by their codes with no other effect. R95: an action is placed behind every entry of its due time and ahead of every
later one. -/
def Obligations.PostLocal : Prop :=
  PlacesInOrder
  ∧ ∀ (s : State) (n : Nat) (scope : Byte) (a : ActionFields), 1 ≤ n → n ≤ 16 → s.port.work = .current (.post scope a) n →
    s.member.state = .member →
    let answered (code : RespCode) : ServicePort :=
      { s.port with response := some { command := 0x10, code := code, data := [] }, work := .idle }
    (1 < scope.toNat → exec .post s = .next (s.withPort (answered .badParam)))
    ∧ (scope.toNat ≤ 1 → 0x8000 ≤ a.serial.toNat → exec .post s = .next (s.withPort (answered .badSerial)))
    ∧ (scope = 0 → a.serial.toNat < 0x8000 → s.enabled a.line = false →
        exec .post s = .next (s.withPort (answered .badLine)))
    ∧ (scope = 0 → a.serial.toNat < 0x8000 → s.enabled a.line = true →
        (∃ r, a.rep = some r ∧ ¬ (16 ≤ r.period.toNat ∧ r.period.toNat < 2 ^ 31)) ∨ (a.kind = .pulse ∧ a.width.getD 0 = 0) →
        exec .post s = .next (s.withPort (answered .badParam)))
    ∧ (scope = 0 → a.serial.toNat < 0x8000 → s.enabled a.line = true →
        (∀ r, a.rep = some r → 16 ≤ r.period.toNat ∧ r.period.toNat < 2 ^ 31) → (a.kind = .pulse → a.width.getD 0 ≠ 0) →
        (∃ x ∈ s.sched.queue, x.id = { origin := s.number, serial := a.serial }) → isAfter a.due s.now = true →
        exec .post s = .next ((s.withPort (answered .ok)).withSched
          { queue := placeIn s.orderBase
              { id := { origin := s.number, serial := a.serial }, due := a.due, line := a.line, kind := a.kind,
                width := a.width, rep := a.rep, pendingRep := none, notify := a.notify, source := .localCommand,
                sequence := s.sched.counter + 1 }
              (s.sched.queue.filter (fun x => x.id ≠ { origin := s.number, serial := a.serial }))
            counter := s.sched.counter + 1 }))
    ∧ (scope = 0 → a.serial.toNat < 0x8000 → s.enabled a.line = true →
        (∀ r, a.rep = some r → 16 ≤ r.period.toNat ∧ r.period.toNat < 2 ^ 31) → (a.kind = .pulse → a.width.getD 0 ≠ 0) →
        (∀ x ∈ s.sched.queue, x.id ≠ { origin := s.number, serial := a.serial }) →
        (32 ≤ s.sched.queue.length → exec .post s = .next (s.withPort (answered .queueFull)))
        ∧ (s.sched.queue.length < 32 → isAfter a.due s.now = true → exec .post s = .next
            ((s.withPort (answered .ok)).withSched
              { queue := placeIn s.orderBase
                  { id := { origin := s.number, serial := a.serial }, due := a.due, line := a.line, kind := a.kind,
                    width := a.width, rep := a.rep, pendingRep := none, notify := a.notify, source := .localCommand,
                    sequence := s.sched.counter + 1 } s.sched.queue
                counter := s.sched.counter + 1 })))

/-- R100–R102: a local POST that is due now fires at once; and one that is late: under DROP it is answered LATE with a DROPPED report
and not inserted; under FIRE it fires at once with a LATE report before its FIRED report and is answered OK. R105–R108: a repeating one
that fires so is stepped, the occurrences it skips told in LATE, and placed again. R98: a queued entry of its id is removed first, and
stays removed under DROP. -/
def Obligations.PostLate : Prop :=
  ∀ (s : State) (n : Nat) (a : ActionFields), 1 ≤ n → n ≤ 16 → s.port.work = .current (.post 0 a) n →
    s.member.state = .member → a.serial.toNat < 0x8000 → s.enabled a.line = true →
    (∀ r, a.rep = some r → 16 ≤ r.period.toNat ∧ r.period.toNat < 2 ^ 31) → (a.kind = .pulse → a.width.getD 0 ≠ 0) →
    let id : ActionId := { origin := s.number, serial := a.serial }
    (∃ x ∈ s.sched.queue, x.id = id) ∨ s.sched.queue.length < 32 →
    let free := s.withSched { s.sched with queue := s.sched.queue.filter (fun x => x.id ≠ id) }
    let stamped (d : ReportDetail) : Report := { detail := d, stamp := s.stampTime, unsynced := s.unsynced }
    ∃ t, exec .post s = .next t
      ∧ (a.rep = none → a.due = s.now →
          t = (free.withOut { lines := s.out.lines.set a.line ((s.out.lines[a.line]).fired (s.defaultHigh a.line) s.now a.kind
                (a.width.getD 0) id a.due) }).withPort { s.port with
            reports := (if a.notify then arrive s.port.reports (stamped (.fired id a.line a.kind a.due none)) else s.port.reports)
            attn := t.port.attn
            response := some { command := 0x10, code := .ok, data := [] }
            work := .idle })
      ∧ (isBefore a.due s.now = true → s.config.latePolicy = .drop →
          t = free.withPort { s.port with
            reports := arrive s.port.reports (stamped (.dropped id (s.now - a.due)))
            attn := t.port.attn
            response := some { command := 0x10, code := .late, data := [] }
            work := .idle })
      ∧ (a.rep = none → isBefore a.due s.now = true → s.config.latePolicy = .fire →
          t = (free.withOut { lines := s.out.lines.set a.line ((s.out.lines[a.line]).fired (s.defaultHigh a.line) s.now a.kind
                (a.width.getD 0) id a.due) }).withPort { s.port with
            reports := (let queue := arrive s.port.reports (stamped (.late id (s.now - a.due) 0));
              if a.notify then arrive queue (stamped (.fired id a.line a.kind a.due none)) else queue)
            attn := t.port.attn
            response := some { command := 0x10, code := .ok, data := [] }
            work := .idle })
      ∧ (a.rep.isSome = true → a.due = s.now ∨ (isBefore a.due s.now = true ∧ s.config.latePolicy = .fire) →
          ∃ v, free.FiresRepeating v
              { id := id, due := a.due, line := a.line, kind := a.kind, width := a.width, rep := a.rep, pendingRep := none,
                notify := a.notify, source := .localCommand, sequence := 0 }
            ∧ t = v.withPort { v.port with response := some { command := 0x10, code := .ok, data := [] }, work := .idle })

/-- R20, R142, R175: POST, AMEND and CANCEL with cluster scope in MEMBER queue their frame with the self-delivery flag and answer
OK; with 8 records held the answer is TX_FULL with no other effect. A scope that is neither is BAD_PARAM. -/
def Obligations.ClusterScope : Prop :=
  (∀ (s : State) (n : Nat) (scope : Byte) (selector serial : Half) (new : Repeat) (c : Command), 1 ≤ n → n ≤ 16 →
    s.port.work = .current c n → s.member.state = .member → 1 < scope.toNat →
    c = .amend scope selector serial new ∨ c = .cancel scope selector serial →
    exec c.row s = .next (s.withPort
      { s.port with response := some { command := c.code, code := .badParam, data := [] }, work := .idle }))
  ∧ ∀ (s : State) (n : Nat) (c : Command) (payload : Payload), 1 ≤ n → n ≤ 16 → s.port.work = .current c n →
    s.member.state = .member →
    (∃ a, c = .post 1 a ∧ a.serial.toNat < 0x8000 ∧ payload = .action a)
      ∨ (∃ selector serial new, c = .amend 1 selector serial new ∧ payload = .amend selector serial new)
      ∨ (∃ selector serial, c = .cancel 1 selector serial ∧ payload = .cancel selector serial) →
    let answered (code : RespCode) : ServicePort :=
      { s.port with response := some { command := c.code, code := code, data := [] }, work := .idle }
    (s.cont.queue.length < 8 → exec c.row s = .next ((s.withCont { s.cont with
        queue := s.cont.queue ++ [{ payload := payload, attempts := 0, selfDelivery := true, reflexEntry := none,
                                    inTransmission := false, isVoid := false }] }).withPort (answered .ok)))
    ∧ (8 ≤ s.cont.queue.length → exec c.row s = .next (s.withPort (answered .txFull)))

/-- R109, R110, R112, R141: AMEND and CANCEL with local scope in MEMBER: the outcome of each and its response code. -/
def Obligations.AmendAndCancelLocal : Prop :=
  ∀ (s : State) (n : Nat) (selector serial : Half), 1 ≤ n → n ≤ 16 → s.member.state = .member →
    let named (x : Entry) : Bool := decide (x.id = { origin := s.number, serial := serial })
    let answered (command : Byte) (code : RespCode) : ServicePort :=
      { s.port with response := some { command := command, code := code, data := [] }, work := .idle }
    (s.port.work = .current (.cancel 0 selector serial) n →
      ((∀ x ∈ s.sched.queue, named x = false) → exec .cancel s = .next (s.withPort (answered 0x12 .notFound)))
      ∧ ((∃ x ∈ s.sched.queue, named x = true) → exec .cancel s = .next ((s.withSched { s.sched with
          queue := s.sched.queue.filter (fun x => !named x) }).withPort (answered 0x12 .ok))))
    ∧ ∀ new, s.port.work = .current (.amend 0 selector serial new) n →
      ((∀ x ∈ s.sched.queue, named x = false) → exec .amend s = .next (s.withPort (answered 0x11 .notFound)))
      ∧ ∀ before e after, s.sched.queue = before ++ e :: after → named e = true → (∀ x ∈ before ++ after, named x = false) →
        (e.rep = none → exec .amend s = .next (s.withPort (answered 0x11 .notRepeating)))
        ∧ (e.rep.isSome = true → ¬ (16 ≤ new.period.toNat ∧ new.period.toNat < 2 ^ 31) →
            exec .amend s = .next (s.withPort (answered 0x11 .badParam)))
        ∧ (e.rep.isSome = true → 16 ≤ new.period.toNat → new.period.toNat < 2 ^ 31 →
            exec .amend s = .next ((s.withSched { s.sched with
              queue := before ++ { e with pendingRep := some new } :: after }).withPort (answered 0x11 .ok)))

/-- R68, R118, R176: FIND answers the entry's position and fields, or NOT_FOUND; READ_PEERS answers the sixteen records in
order, 160 bytes. Neither changes anything but the port's response. R186 and R188 lay out the data bytes; the bits that they leave
unnamed, in byte 6 of FIND and bytes 0 and 1 of a peer record, are sent as 0 by the model's choice (log 23). -/
def Obligations.FindAndReadPeers : Prop :=
  ∀ (s : State) (n : Nat), 1 ≤ n → n ≤ 16 →
    let answered (command : Byte) (code : RespCode) (data : List Byte) : State :=
      s.withPort { s.port with response := some { command := command, code := code, data := data }, work := .idle }
    let byte (k : Nat) : Byte := .ofNat 8 k
    let flag (b : Bool) : Nat := if b then 1 else 0
    let half (h : Half) : List Byte := [byte (h.toNat % 256), byte (h.toNat / 256)]
    let word (w : BitVec 32) : List Byte :=
      [byte (w.toNat % 256), byte (w.toNat / 2 ^ 8 % 256), byte (w.toNat / 2 ^ 16 % 256), byte (w.toNat / 2 ^ 24)]
    let record (i : Fin 16) : List Byte :=
      let r := s.sync.peers[i]
      let state := match r.state with
        | .absent => 0 | .heard => 1 | .synced => 2 | .lost => 3 | .self => 4
      let beacon := match r.beacon with
        | none => [byte (flag r.fresh), 0, 0, 0, 0, 0, 0, 0]
        | some x => byte (flag r.fresh + 2 + 4 * flag x.body.member + 8 * flag x.body.alone) :: word x.offset
          ++ x.body.count :: half x.body.bitmap
      byte (i.val + 16 * state) :: beacon ++ [byte r.missed]
    let repeated (r : Option Repeat) : List Byte := match r with
      | none => [0, 0, 0, 0, 0]
      | some x => word x.period ++ [x.count]
    let found (place : Nat) (e : Entry) : List Byte :=
      let kind := match e.kind with
        | .set => 0 | .clear => 1 | .toggle => 2 | .pulse => 3
      let source := match e.source with
        | .localCommand => 0 | .selfDelivery => 1 | .remote => 2 | .reflex => 3
      byte place :: word e.due ++ [byte (e.line.val + 8 * kind + 32 * flag e.notify + 64 * flag e.rep.isSome),
        byte (flag e.width.isSome + 2 * flag e.rep.isSome + 4 * flag e.pendingRep.isSome), byte source]
      ++ half (e.width.getD 0) ++ repeated e.rep ++ repeated e.pendingRep
    (s.port.work = .current .readPeers n → exec .readPeers s = .next (answered 0x22 .ok ((List.finRange 16).flatMap record))
      ∧ ((List.finRange 16).flatMap record).length = 160)
    ∧ ∀ (origin : Byte) (serial : Half), s.port.work = .current (.find origin serial) n →
      (16 ≤ origin.toNat → exec .find s = .next (answered 0x13 .badParam []))
      ∧ (origin.toNat < 16 → (∀ x ∈ s.sched.queue, ¬ (x.id.origin.val = origin.toNat ∧ x.id.serial = serial)) →
          exec .find s = .next (answered 0x13 .notFound []))
      ∧ (origin.toNat < 16 → ∀ before e after, s.sched.queue = before ++ e :: after →
          e.id.origin.val = origin.toNat → e.id.serial = serial →
          (∀ x ∈ before, ¬ (x.id.origin.val = origin.toNat ∧ x.id.serial = serial)) →
          exec .find s = .next (answered 0x13 .ok (found (before.length + 1) e)))

/-- R155–R157, R159, R177, R182: READ_LOG removes the oldest records up to its count and ends the overflow episode when it removed
one; READ_REPORTS removes the oldest reports up to its count and returns them in order; SNAPSHOT enters a soft record stamped now,
which a full log under STOP discards. R186 and R188 lay out the data bytes; that the bits they leave unnamed are sent as 0, so that byte
0 of SNAPSHOT is 01h or 00h, is the model's choice (log 23), and so is the code of an ALONE report (log 24); that the FIRED record of a
one-shot has the ended bit and the count 0 is the model's reading (log 16). -/
def Obligations.LogAndReportCommands : Prop :=
  let byte (k : Nat) : Byte := .ofNat 8 k
  let flag (b : Bool) : Nat := if b then 1 else 0
  let half (h : Half) : List Byte := [byte (h.toNat % 256), byte (h.toNat / 256)]
  let word (w : BitVec 32) : List Byte :=
    [byte (w.toNat % 256), byte (w.toNat / 2 ^ 8 % 256), byte (w.toNat / 2 ^ 16 % 256), byte (w.toNat / 2 ^ 24)]
  let recorded (r : LogRecord) : List Byte :=
    let channel := match r.body.channel with
      | .input i => i.val
      | .soft => 8
    let edge := match r.body.edge with
      | .rise => 0 | .fall => 1 | .soft => 2
    half r.sequence ++ [byte (r.body.station.val + 16 * flag r.body.remote.isSome + 32 * flag (r.body.base = .localTicks)
      + 64 * flag r.body.synced), byte (channel + 16 * edge)] ++ word r.body.stamp ++ half (r.body.remote.getD 0)
  let state : StationState → Byte
    | .unconfigured => 0 | .ready => 1 | .listen => 2 | .joining => 3 | .member => 4 | .stopped => 5
  let cause : Cause → Byte
    | .start => 0 | .stop => 1 | .founded => 2 | .adopted => 3 | .joined => 4 | .joinFailed => 5 | .split => 6 | .duplicate => 7
  let peer : PeerState → Byte
    | .absent => 0 | .heard => 1 | .synced => 2 | .lost => 3 | .self => 4
  let named (id : ActionId) : List Byte := byte id.origin.val :: half id.serial
  let framed (kind : FrameKind) (d : FrameDetail) : List Byte :=
    let code := match kind with
      | .beacon => 1 | .action => 2 | .amend => 3 | .cancel => 4 | .event => 5 | .refuse => 6
    match d with
    | .none => [byte code]
    | .action id => byte code :: named id
    | .reflex entry sequence => [byte (code + 128), byte entry.val] ++ half (sequence.getD 0)
  let detailed : ReportDetail → Byte × List Byte
    | .state old new why => (0x01, [state old, state new, cause why])
    | .peer station old new offset =>
      (0x02, [byte station.val, peer old, peer new, byte (flag offset.isSome)] ++ word (offset.getD 0))
    | .alone value => (0x03, [byte (flag value)])
    | .late id lateness skipped => (0x04, named id ++ word lateness ++ half (.ofNat 16 skipped))
    | .dropped id lateness => (0x05, named id ++ 4 :: word lateness)
    | .fired id line kind due rep =>
      let code := match kind with
        | .set => 0 | .clear => 1 | .toggle => 2 | .pulse => 3
      let (ended, left) := match rep with
        | none => (false, 0)
        | some x => (x.ended, x.left)
      (0x06, named id ++ byte (line.val + 8 * code + 32 * flag rep.isSome + 64 * flag ended) :: word due ++ [left])
    | .refused id station reason => (0x07, named id ++ [byte station.val, reason])
    | .txAbandoned kind d => (0x08, framed kind d)
    | .notSent kind d => (0x09, framed kind d)
    | .flushed removed why => (0x0A, [byte removed, cause why])
    | .line condition => (0x0B, [if condition = .stuck then 0 else 1])
    | .lineErrors count => (0x0C, half (.ofNat 16 count))
    | .logOverflow policy discarded => (0x0D, (if policy = .stop then 0 else 1) :: half (discarded.getD 0))
    | .overflow lost => (0x0E, [byte lost])
  let reported (r : Report) : List Byte :=
    let (kind, detail) := detailed r.detail
    [kind, byte (flag r.unsynced)] ++ word r.stamp ++ detail ++ List.replicate (10 - detail.length) 0
  (∀ (s : State) (n : Nat) (count : Byte), 1 ≤ n → n ≤ 16 → s.port.work = .current (.readLog count) n →
    (count = 0 ∨ 8 < count.toNat → exec .readLog s = .next (s.withPort { s.port with
      response := some { command := 0x20, code := .badParam, data := [] }, work := .idle }))
    ∧ (1 ≤ count.toNat → count.toNat ≤ 8 → ∃ t, exec .readLog s = .next t
        ∧ t = (s.withCap { s.cap with log := s.cap.log.drop count.toNat, episode := t.cap.episode }).withPort { s.port with
            attn := t.port.attn
            response := some {
              command := 0x20, code := .ok
              data := byte (min count.toNat s.cap.log.length) :: (s.cap.log.take count.toNat).flatMap recorded }
            work := .idle }
        ∧ (s.cap.log = [] → t.cap.episode = s.cap.episode) ∧ (s.cap.log ≠ [] → t.cap.episode = false)))
  ∧ (∀ (s : State) (n : Nat) (count : Byte), 1 ≤ n → n ≤ 16 → s.port.work = .current (.readReports count) n →
    (count = 0 ∨ 8 < count.toNat → exec .readReports s = .next (s.withPort { s.port with
      response := some { command := 0x21, code := .badParam, data := [] }, work := .idle }))
    ∧ (1 ≤ count.toNat → count.toNat ≤ 8 → ∃ t, exec .readReports s = .next t
        ∧ t = s.withPort { s.port with
            reports := s.port.reports.drop count.toNat
            attn := t.port.attn
            response := some {
              command := 0x21, code := .ok
              data := byte (min count.toNat s.port.reports.length) :: (s.port.reports.take count.toNat).flatMap reported }
            work := .idle }))
  ∧ ∀ (s : State) (n : Nat), 1 ≤ n → n ≤ 16 → s.port.work = .current .snapshot n →
    (s.active = true ∨ s.member.state = .stopped) → ∃ t, exec .snapshot s = .next t ∧
      let soft : LogRecord := {
        sequence := s.cap.logCounter
        body := { station := s.number, channel := .soft, edge := .soft, stamp := s.stampTime,
                  base := if s.valid then .clusterTime else .localTicks, synced := s.synced, remote := none } }
      let answered (reports : List Report) (data : List Byte) : ServicePort := { s.port with
        reports := reports
        attn := t.port.attn
        response := some { command := 0x23, code := .ok, data := data }
        work := .idle }
      let overflowed (policy : LogPolicy) (discarded : Option Half) : List Report :=
        if s.cap.episode then s.port.reports
        else arrive s.port.reports
          { detail := .logOverflow policy discarded, stamp := s.stampTime, unsynced := s.unsynced }
      (s.cap.log.length < 64 →
          t = (s.withCap { s.cap with log := s.cap.log ++ [soft], logCounter := s.cap.logCounter + 1 }).withPort
            (answered s.port.reports (0x01 :: half s.cap.logCounter)))
      ∧ (64 ≤ s.cap.log.length → s.config.logPolicy = .stop →
          t = (s.withCap { s.cap with episode := true }).withPort (answered (overflowed .stop none) [0x00, 0x00, 0x00]))
      ∧ (∀ oldest rest, s.cap.log = oldest :: rest → 64 ≤ s.cap.log.length → s.config.logPolicy = .wrap →
          t = (s.withCap { s.cap with
              log := rest ++ [soft], logCounter := s.cap.logCounter + 1, episode := true }).withPort
            (answered (overflowed .wrap (some oldest.sequence)) (0x01 :: half s.cap.logCounter)))

/-- R127, R128: DRIVE in LISTEN, JOINING, MEMBER or STOPPED: a bad kind or line number is BAD_PARAM, a line outside the mask
BAD_LINE; otherwise the line takes the level, its trailing edge is gone, and the readout shows the eight lines. R186 lays the readout
out; bits 7–3 of byte 0 of each line record, which it leaves unnamed, are sent as 0 by the model's choice (log 23). -/
def Obligations.Drive : Prop :=
  ∀ (s : State) (n : Nat) (line kind : Byte), 1 ≤ n → n ≤ 16 → s.port.work = .current (.drive line kind) n →
    (s.active = true ∨ s.member.state = .stopped) →
    let answered (code : RespCode) (data : List Byte) : ServicePort :=
      { s.port with response := some { command := 0x24, code := code, data := data }, work := .idle }
    let byte (k : Nat) : Byte := .ofNat 8 k
    let flag (b : Bool) : Nat := if b then 1 else 0
    let shown : OutLine → List Byte
      | .released => [0, 0, 0, 0, 0, 0, 0, 0]
      | .driven high none => [byte (1 + 2 * flag high), 0, 0, 0, 0, 0, 0, 0]
      | .driven high (some e) =>
        let w := e.endTime.toNat
        [byte (5 + 2 * flag high), byte (w % 256), byte (w / 2 ^ 8 % 256), byte (w / 2 ^ 16 % 256), byte (w / 2 ^ 24),
          byte e.id.origin.val, byte (e.id.serial.toNat % 256), byte (e.id.serial.toNat / 256)]
    (2 < kind.toNat ∨ 7 < line.toNat → exec .drive s = .next (s.withPort (answered .badParam [])))
    ∧ ∀ l : Fin 8, l.val = line.toNat → kind.toNat ≤ 2 →
      (s.enabled l = false → exec .drive s = .next (s.withPort (answered .badLine [])))
      ∧ (s.enabled l = true → ∀ high edge, s.out.lines[l] = .driven high edge → ∃ t, exec .drive s = .next t
          ∧ t = (s.withOut t.out).withPort (answered .ok ((List.finRange 8).flatMap fun m => shown t.out.lines[m]))
          ∧ (∀ m, m ≠ l → t.out.lines[m] = s.out.lines[m])
          ∧ (kind = 0 → t.out.lines[l] = .driven true none)
          ∧ (kind = 1 → t.out.lines[l] = .driven false none)
          ∧ (kind = 2 → t.out.lines[l] = .driven (!high) none))

/-- R172, R173: a command executed in a state that does not allow it is answered BAD_STATE and changes nothing; which commands
each state allows. -/
def Obligations.BadState : Prop :=
  (∀ (s : State) (c : Command) (n : Nat), 1 ≤ n → n ≤ 16 → s.port.work = .current c n →
    c.allowedIn s.member.state = false → exec c.row s = .next (s.withPort { s.port with
      response := some { command := c.code, code := .badState, data := [] }, work := .idle }))
  ∧ ∀ (c : Command) (state : StationState), c.allowedIn state = true ↔
      match c with
      | .nop | .status | .find _ _ | .readLog _ | .readReports _ | .readPeers => True
      | .configure _ => state ∈ [.unconfigured, .ready]
      | .start => state ∈ [.ready, .stopped]
      | .stop => state ∈ [.listen, .joining, .member]
      | .post _ _ | .amend _ _ _ _ | .cancel _ _ _ => state = .member
      | .snapshot | .drive _ _ => state ∈ [.listen, .joining, .member, .stopped]

/-- R134: a selector passes the windows when it matches at least one enabled window, bit by bit under the mask. R133, R148: only
START and hardware reset write a window; a tick writes none but by the START that it executes in its sixteenth tick (R172). -/
def Obligations.WindowsPass : Prop :=
  (∀ (s : State) (selector : Half), s.passes selector = true ↔
    ∃ w ∈ s.exch.windows, w.enabled = true ∧ ∀ b < 16, w.mask.getLsbD b = true → selector.getLsbD b = w.value.getLsbD b)
  ∧ ∀ (c : Instr) (s t : State), exec c s = .next t → c ≠ .start → c ≠ .hardwareReset →
      ((∃ levels, c = .tick levels) → ∀ n, s.port.work = .current .start n → n < 16) → t.exch = s.exch

/-! ### Invariants that every step keeps -/

/-- R181: what becomes of a report that arrives; and the report queue never holds more than 32 reports, and an OVERFLOW report,
when present, is the last. -/
def Obligations.ReportsKept : Prop :=
  (∀ (queue : List Report) (last : Report) (lost : Nat) (r : Report), last.detail = .overflow lost →
    arrive (queue ++ [last]) r = queue ++ [{ last with detail := .overflow (min (lost + 1) 255) }])
  ∧ (∀ (queue : List Report) (r : Report), (∀ last ∈ queue.getLast?, last.isOverflow = false) →
      (queue.length = 31 → arrive queue r = queue ++ [{ r with detail := .overflow 1 }])
      ∧ (queue.length < 31 → arrive queue r = queue ++ [r]))
  ∧ ∀ s t : State, s.ReportsOk → step s = .next t → t.ReportsOk

/-- R18, R29, R33: the transmit queue never holds more than 8 frames, nor more than one BEACON, nor more than one record in
transmission; attempt counts stay 0–7 and only a record in transmission is void. -/
def Obligations.TransmitKept : Prop :=
  ∀ s t : State, s.TransmitOk → step s = .next t → t.TransmitOk

/-- R155: the capture log never holds more than 64 records, and the log sequences of consecutive records differ by one. -/
def Obligations.LogKept : Prop :=
  ∀ s t : State, s.LogOk → step s = .next t → t.LogOk

/-- R183: ATTN is asserted exactly while a report is held or the log count is at least the threshold. -/
def Obligations.AttnKept : Prop :=
  ∀ s t : State, s.port.attn = s.attnDue → step s = .next t →
    (t.port.attn = true ↔ t.port.reports ≠ [] ∨ ∃ c, t.cfg = some c ∧ c.threshold ≤ t.cap.log.length)

/-- What the station state fixes of the other blocks, with the configuration in range; and a command held has waited at most
sixteen ticks (R172). -/
def Obligations.PhaseKept : Prop :=
  (∀ s t : State, s.PhaseOk → s.ConfigOk → step s = .next t → t.PhaseOk ∧ t.ConfigOk)
  ∧ ∀ s t : State, s.WaitOk → step s = .next t → t.WaitOk

/-- R120, R124: a line outside the output enable mask is never driven, and a pending trailing edge exists only in MEMBER. -/
def Obligations.OutputsKept : Prop :=
  ∀ s t : State, s.OutputsOk → step s = .next t → t.OutputsOk

/-- R52: the own record, and no other, is SELF. -/
def Obligations.PeersKept : Prop :=
  ∀ s t : State, s.PhaseOk → s.PeersOk → step s = .next t → t.PeersOk

/-- R94, R95: the action queue holds at most 32 entries in due order, no two of one id, none behind now; and entries of one due time
stand in the order of their insertion sequence, as long as no entry has waited through nearly a whole turn of the 32-bit counter. -/
def Obligations.ActionsKept : Prop :=
  ∀ s t : State, s.PhaseOk → s.ActionsOk → step s = .next t → t.ActionsOk
    ∧ (s.SequencesOk (2 ^ 20) → s.owed.insertions.length + s.owed.exchange.length < 2 ^ 16 → t.SequencesOk 0)

/-- R41: at every round boundary the slew remaining from the previous boundary is zero. -/
def Obligations.SlewKept : Prop :=
  ∀ s t : State, s.PhaseOk → s.ConfigOk → s.SlewOk → step s = .next t → t.SlewOk

/-- Every invariant holds at reset. -/
def Obligations.InvariantsAtReset : Prop :=
  State.reset.ReportsOk ∧ State.reset.TransmitOk ∧ State.reset.LogOk ∧ State.reset.AttnOk ∧ State.reset.PhaseOk
  ∧ State.reset.ConfigOk ∧ State.reset.OutputsOk ∧ State.reset.PeersOk ∧ State.reset.ActionsOk ∧ State.reset.SlewOk
  ∧ State.reset.WaitOk ∧ State.reset.SequencesOk (2 ^ 20)

/-! ### Encoding -/

/-- R1–R5, R7, R11, R185: the bits of every frame the part sends are assembled by a receiver into the same frame, at the last
stop bit and not before; and so are its characters with any gap shorter than 11 bit times between them. R1, R4, R185: the bits of a
character, and the bytes of the frame of each kind. -/
def Obligations.FrameRoundTrip : Prop :=
  (∀ l : List Byte, bitsOfFrame l = l.flatMap characterBits)
  ∧ (∀ b : Byte, characterBits b = [false, b.getLsbD 0, b.getLsbD 1, b.getLsbD 2, b.getLsbD 3, b.getLsbD 4, b.getLsbD 5, b.getLsbD 6,
      b.getLsbD 7, true])
  ∧ (∀ (number : Station) (time : Time) (p : Payload),
    let byte (k : Nat) : Byte := .ofNat 8 k
    let flag (b : Bool) : Nat := if b then 1 else 0
    let half (h : Half) : List Byte := [byte (h.toNat % 256), byte (h.toNat / 256)]
    let word (w : BitVec 32) : List Byte :=
      [byte (w.toNat % 256), byte (w.toNat / 2 ^ 8 % 256), byte (w.toNat / 2 ^ 16 % 256), byte (w.toNat / 2 ^ 24)]
    let laidOut : Nat × List Byte := match p with
      | .beacon _ b => (1, word time ++ [byte (flag b.member + 2 * flag b.alone), b.count] ++ half b.bitmap)
      | .action a =>
        let kind := match a.kind with
          | .set => 0 | .clear => 1 | .toggle => 2 | .pulse => 3
        let width := match a.width with
          | none => []
          | some w => half w
        let repeated := match a.rep with
          | none => []
          | some r => word r.period ++ [r.count]
        (2, half a.selector ++ half a.serial ++ word a.due
          ++ [byte (a.line.val + 8 * kind + 32 * flag a.notify + 64 * flag a.rep.isSome)] ++ width ++ repeated)
      | .amend selector serial new => (3, half selector ++ half serial ++ word new.period ++ [new.count])
      | .cancel selector serial => (4, half selector ++ half serial)
      | .event selector channel edge stamp sequence =>
        (5, half selector ++ [byte (channel.val + 8 * if edge = .rise then 0 else 1)] ++ word stamp ++ half sequence)
      | .refuse origin serial reason => (6, byte origin.val :: half serial ++ [reason])
    let checked := byte (number.val + 32 * laidOut.1) :: byte laidOut.2.length :: laidOut.2
    frameBytes number time p = checked ++ half (crc16 checked)
    ∧ p.sentAt time = match p with
        | .beacon _ b => .beacon (some time) b
        | other => other)
  ∧ ∀ (number : Station) (time : Time) (p : Payload), p.wellFormed = true →
    takeSamples (.awaiting []) (bitsOfFrame (frameBytes number time p))
      = .valid { sender := number, payload := p.sentAt time }
    ∧ (∀ n, n < (bitsOfFrame (frameBytes number time p)).length →
        ∃ f, takeSamples (.awaiting []) ((bitsOfFrame (frameBytes number time p)).take n) = .more f)
    ∧ ∀ gap : Nat → Nat, (∀ i, gap i < 11) →
        takeSamples (.awaiting []) ((frameBytes number time p).zipIdx.flatMap fun (b, i) =>
          List.replicate (gap i) true ++ characterBits b)
          = .valid { sender := number, payload := p.sentAt time }
end

