-- ==== Sys2Proof/Laws/Line.lean ====
section
/-! SUPPORT. When the offered frame starts at an idle slot (R25), what holds an evaluation's beacon back (R66), and the recessive run in
a gap within a frame (R6). -/

namespace Sys2Proof.Machine.State

variable (s : State)

theorem departureHanded_iff : s.departureHanded = true ↔
    ∃ h, s.owed.verdict = some h ∧ (h.verdict = .split ∨ h.verdict = .joinFailure) := by
  unfold departureHanded
  cases s.owed.verdict <;> simp

@[simp] theorem departureHanded_of_no_verdict (h : s.owed.verdict = none) : s.departureHanded = false := by
  simp [departureHanded, h]

/-- The offered frame starts exactly in its own slot, with the receiver in WAIT, the line not muted, its kind admitted by the state,
and no departure handed over that its beacon would precede. -/
theorem mayStart_iff (slot : Fin 64) (o : Offer) (r : TxRecord) (h : s.cont.queue[o.place]? = some r) :
    s.mayStart slot o = true ↔ o.value = slot.val ∧ s.line.receiver = .wait ∧ s.line.muted = false
      ∧ takesKind r.kind s.member.state = true ∧ (r.kind = .beacon → s.departureHanded = false) := by
  simp only [mayStart, h, Bool.and_eq_true, decide_eq_true_iff, Bool.not_eq_true', Bool.and_eq_false_iff, decide_eq_false_iff_not]
  tauto

/-- In a gap that goes on by recessive samples the run grows with the gap. -/
theorem runAtGap_of_gap (f : PartialFrame) (n gap : Nat) (h : f.bits = []) :
    s.runAtGap f (List.replicate n true) gap = s.line.recessiveRun + (gap - f.gap) := by
  simp [runAtGap, h, List.take_replicate]

/-- A character in progress ends within the samples, and the run is the gap after it. -/
theorem runAtGap_of_character (f : PartialFrame) (samples : List Bool) (gap : Nat) (h : f.bits ≠ []) :
    s.runAtGap f samples gap = gap := by
  simp [runAtGap, h]

end Sys2Proof.Machine.State
end

