-- ==== Sys2Proof/Laws/State.lean ====
section
/-! SUPPORT. The setters of State: one lemma per field per setter, and the views of State that a setter leaves as they are. All
are true by rfl, so that no proof unfolds a record update. -/

namespace Sys2Proof.Machine.State

/-! `withMember` -/

section

variable (s : State) (x : Membership)

@[simp] theorem member_withMember : (s.withMember x).member = x := rfl
@[simp] theorem line_withMember : (s.withMember x).line = s.line := rfl
@[simp] theorem cont_withMember : (s.withMember x).cont = s.cont := rfl
@[simp] theorem clock_withMember : (s.withMember x).clock = s.clock := rfl
@[simp] theorem sync_withMember : (s.withMember x).sync = s.sync := rfl
@[simp] theorem sched_withMember : (s.withMember x).sched = s.sched := rfl
@[simp] theorem out_withMember : (s.withMember x).out = s.out := rfl
@[simp] theorem exch_withMember : (s.withMember x).exch = s.exch := rfl
@[simp] theorem cap_withMember : (s.withMember x).cap = s.cap := rfl
@[simp] theorem port_withMember : (s.withMember x).port = s.port := rfl
@[simp] theorem cfg_withMember : (s.withMember x).cfg = s.cfg := rfl
@[simp] theorem pins_withMember : (s.withMember x).pins = s.pins := rfl
@[simp] theorem owed_withMember : (s.withMember x).owed = s.owed := rfl
@[simp] theorem pending_withMember : (s.withMember x).pending = s.pending := rfl
@[simp] theorem withMember_self : s.withMember s.member = s := rfl
@[simp] theorem withMember_withMember (y : Membership) : (s.withMember x).withMember y = s.withMember y := rfl

end

/-! `withLine` -/

section

variable (s : State) (x : LineUnit)

@[simp] theorem member_withLine : (s.withLine x).member = s.member := rfl
@[simp] theorem line_withLine : (s.withLine x).line = x := rfl
@[simp] theorem cont_withLine : (s.withLine x).cont = s.cont := rfl
@[simp] theorem clock_withLine : (s.withLine x).clock = s.clock := rfl
@[simp] theorem sync_withLine : (s.withLine x).sync = s.sync := rfl
@[simp] theorem sched_withLine : (s.withLine x).sched = s.sched := rfl
@[simp] theorem out_withLine : (s.withLine x).out = s.out := rfl
@[simp] theorem exch_withLine : (s.withLine x).exch = s.exch := rfl
@[simp] theorem cap_withLine : (s.withLine x).cap = s.cap := rfl
@[simp] theorem port_withLine : (s.withLine x).port = s.port := rfl
@[simp] theorem cfg_withLine : (s.withLine x).cfg = s.cfg := rfl
@[simp] theorem pins_withLine : (s.withLine x).pins = s.pins := rfl
@[simp] theorem owed_withLine : (s.withLine x).owed = s.owed := rfl
@[simp] theorem pending_withLine : (s.withLine x).pending = s.pending := rfl
@[simp] theorem withLine_self : s.withLine s.line = s := rfl
@[simp] theorem withLine_withLine (y : LineUnit) : (s.withLine x).withLine y = s.withLine y := rfl

end

/-! `withCont` -/

section

variable (s : State) (x : Contention)

@[simp] theorem member_withCont : (s.withCont x).member = s.member := rfl
@[simp] theorem line_withCont : (s.withCont x).line = s.line := rfl
@[simp] theorem cont_withCont : (s.withCont x).cont = x := rfl
@[simp] theorem clock_withCont : (s.withCont x).clock = s.clock := rfl
@[simp] theorem sync_withCont : (s.withCont x).sync = s.sync := rfl
@[simp] theorem sched_withCont : (s.withCont x).sched = s.sched := rfl
@[simp] theorem out_withCont : (s.withCont x).out = s.out := rfl
@[simp] theorem exch_withCont : (s.withCont x).exch = s.exch := rfl
@[simp] theorem cap_withCont : (s.withCont x).cap = s.cap := rfl
@[simp] theorem port_withCont : (s.withCont x).port = s.port := rfl
@[simp] theorem cfg_withCont : (s.withCont x).cfg = s.cfg := rfl
@[simp] theorem pins_withCont : (s.withCont x).pins = s.pins := rfl
@[simp] theorem owed_withCont : (s.withCont x).owed = s.owed := rfl
@[simp] theorem pending_withCont : (s.withCont x).pending = s.pending := rfl
@[simp] theorem withCont_self : s.withCont s.cont = s := rfl
@[simp] theorem withCont_withCont (y : Contention) : (s.withCont x).withCont y = s.withCont y := rfl

end

/-! `withClock` -/

section

variable (s : State) (x : ClockUnit)

@[simp] theorem member_withClock : (s.withClock x).member = s.member := rfl
@[simp] theorem line_withClock : (s.withClock x).line = s.line := rfl
@[simp] theorem cont_withClock : (s.withClock x).cont = s.cont := rfl
@[simp] theorem clock_withClock : (s.withClock x).clock = x := rfl
@[simp] theorem sync_withClock : (s.withClock x).sync = s.sync := rfl
@[simp] theorem sched_withClock : (s.withClock x).sched = s.sched := rfl
@[simp] theorem out_withClock : (s.withClock x).out = s.out := rfl
@[simp] theorem exch_withClock : (s.withClock x).exch = s.exch := rfl
@[simp] theorem cap_withClock : (s.withClock x).cap = s.cap := rfl
@[simp] theorem port_withClock : (s.withClock x).port = s.port := rfl
@[simp] theorem cfg_withClock : (s.withClock x).cfg = s.cfg := rfl
@[simp] theorem pins_withClock : (s.withClock x).pins = s.pins := rfl
@[simp] theorem owed_withClock : (s.withClock x).owed = s.owed := rfl
@[simp] theorem pending_withClock : (s.withClock x).pending = s.pending := rfl
@[simp] theorem withClock_self : s.withClock s.clock = s := rfl
@[simp] theorem withClock_withClock (y : ClockUnit) : (s.withClock x).withClock y = s.withClock y := rfl

end

/-! `withSync` -/

section

variable (s : State) (x : SyncUnit)

@[simp] theorem member_withSync : (s.withSync x).member = s.member := rfl
@[simp] theorem line_withSync : (s.withSync x).line = s.line := rfl
@[simp] theorem cont_withSync : (s.withSync x).cont = s.cont := rfl
@[simp] theorem clock_withSync : (s.withSync x).clock = s.clock := rfl
@[simp] theorem sync_withSync : (s.withSync x).sync = x := rfl
@[simp] theorem sched_withSync : (s.withSync x).sched = s.sched := rfl
@[simp] theorem out_withSync : (s.withSync x).out = s.out := rfl
@[simp] theorem exch_withSync : (s.withSync x).exch = s.exch := rfl
@[simp] theorem cap_withSync : (s.withSync x).cap = s.cap := rfl
@[simp] theorem port_withSync : (s.withSync x).port = s.port := rfl
@[simp] theorem cfg_withSync : (s.withSync x).cfg = s.cfg := rfl
@[simp] theorem pins_withSync : (s.withSync x).pins = s.pins := rfl
@[simp] theorem owed_withSync : (s.withSync x).owed = s.owed := rfl
@[simp] theorem pending_withSync : (s.withSync x).pending = s.pending := rfl
@[simp] theorem withSync_self : s.withSync s.sync = s := rfl
@[simp] theorem withSync_withSync (y : SyncUnit) : (s.withSync x).withSync y = s.withSync y := rfl

end

/-! `withSched` -/

section

variable (s : State) (x : Scheduler)

@[simp] theorem member_withSched : (s.withSched x).member = s.member := rfl
@[simp] theorem line_withSched : (s.withSched x).line = s.line := rfl
@[simp] theorem cont_withSched : (s.withSched x).cont = s.cont := rfl
@[simp] theorem clock_withSched : (s.withSched x).clock = s.clock := rfl
@[simp] theorem sync_withSched : (s.withSched x).sync = s.sync := rfl
@[simp] theorem sched_withSched : (s.withSched x).sched = x := rfl
@[simp] theorem out_withSched : (s.withSched x).out = s.out := rfl
@[simp] theorem exch_withSched : (s.withSched x).exch = s.exch := rfl
@[simp] theorem cap_withSched : (s.withSched x).cap = s.cap := rfl
@[simp] theorem port_withSched : (s.withSched x).port = s.port := rfl
@[simp] theorem cfg_withSched : (s.withSched x).cfg = s.cfg := rfl
@[simp] theorem pins_withSched : (s.withSched x).pins = s.pins := rfl
@[simp] theorem owed_withSched : (s.withSched x).owed = s.owed := rfl
@[simp] theorem pending_withSched : (s.withSched x).pending = s.pending := rfl
@[simp] theorem withSched_self : s.withSched s.sched = s := rfl
@[simp] theorem withSched_withSched (y : Scheduler) : (s.withSched x).withSched y = s.withSched y := rfl

end

/-! `withOut` -/

section

variable (s : State) (x : OutputUnit)

@[simp] theorem member_withOut : (s.withOut x).member = s.member := rfl
@[simp] theorem line_withOut : (s.withOut x).line = s.line := rfl
@[simp] theorem cont_withOut : (s.withOut x).cont = s.cont := rfl
@[simp] theorem clock_withOut : (s.withOut x).clock = s.clock := rfl
@[simp] theorem sync_withOut : (s.withOut x).sync = s.sync := rfl
@[simp] theorem sched_withOut : (s.withOut x).sched = s.sched := rfl
@[simp] theorem out_withOut : (s.withOut x).out = x := rfl
@[simp] theorem exch_withOut : (s.withOut x).exch = s.exch := rfl
@[simp] theorem cap_withOut : (s.withOut x).cap = s.cap := rfl
@[simp] theorem port_withOut : (s.withOut x).port = s.port := rfl
@[simp] theorem cfg_withOut : (s.withOut x).cfg = s.cfg := rfl
@[simp] theorem pins_withOut : (s.withOut x).pins = s.pins := rfl
@[simp] theorem owed_withOut : (s.withOut x).owed = s.owed := rfl
@[simp] theorem pending_withOut : (s.withOut x).pending = s.pending := rfl
@[simp] theorem withOut_self : s.withOut s.out = s := rfl
@[simp] theorem withOut_withOut (y : OutputUnit) : (s.withOut x).withOut y = s.withOut y := rfl

end

/-! `withExch` -/

section

variable (s : State) (x : ExchangeUnit)

@[simp] theorem member_withExch : (s.withExch x).member = s.member := rfl
@[simp] theorem line_withExch : (s.withExch x).line = s.line := rfl
@[simp] theorem cont_withExch : (s.withExch x).cont = s.cont := rfl
@[simp] theorem clock_withExch : (s.withExch x).clock = s.clock := rfl
@[simp] theorem sync_withExch : (s.withExch x).sync = s.sync := rfl
@[simp] theorem sched_withExch : (s.withExch x).sched = s.sched := rfl
@[simp] theorem out_withExch : (s.withExch x).out = s.out := rfl
@[simp] theorem exch_withExch : (s.withExch x).exch = x := rfl
@[simp] theorem cap_withExch : (s.withExch x).cap = s.cap := rfl
@[simp] theorem port_withExch : (s.withExch x).port = s.port := rfl
@[simp] theorem cfg_withExch : (s.withExch x).cfg = s.cfg := rfl
@[simp] theorem pins_withExch : (s.withExch x).pins = s.pins := rfl
@[simp] theorem owed_withExch : (s.withExch x).owed = s.owed := rfl
@[simp] theorem pending_withExch : (s.withExch x).pending = s.pending := rfl
@[simp] theorem withExch_self : s.withExch s.exch = s := rfl
@[simp] theorem withExch_withExch (y : ExchangeUnit) : (s.withExch x).withExch y = s.withExch y := rfl

end

/-! `withCap` -/

section

variable (s : State) (x : CaptureUnit)

@[simp] theorem member_withCap : (s.withCap x).member = s.member := rfl
@[simp] theorem line_withCap : (s.withCap x).line = s.line := rfl
@[simp] theorem cont_withCap : (s.withCap x).cont = s.cont := rfl
@[simp] theorem clock_withCap : (s.withCap x).clock = s.clock := rfl
@[simp] theorem sync_withCap : (s.withCap x).sync = s.sync := rfl
@[simp] theorem sched_withCap : (s.withCap x).sched = s.sched := rfl
@[simp] theorem out_withCap : (s.withCap x).out = s.out := rfl
@[simp] theorem exch_withCap : (s.withCap x).exch = s.exch := rfl
@[simp] theorem cap_withCap : (s.withCap x).cap = x := rfl
@[simp] theorem port_withCap : (s.withCap x).port = s.port := rfl
@[simp] theorem cfg_withCap : (s.withCap x).cfg = s.cfg := rfl
@[simp] theorem pins_withCap : (s.withCap x).pins = s.pins := rfl
@[simp] theorem owed_withCap : (s.withCap x).owed = s.owed := rfl
@[simp] theorem pending_withCap : (s.withCap x).pending = s.pending := rfl
@[simp] theorem withCap_self : s.withCap s.cap = s := rfl
@[simp] theorem withCap_withCap (y : CaptureUnit) : (s.withCap x).withCap y = s.withCap y := rfl

end

/-! `withPort` -/

section

variable (s : State) (x : ServicePort)

@[simp] theorem member_withPort : (s.withPort x).member = s.member := rfl
@[simp] theorem line_withPort : (s.withPort x).line = s.line := rfl
@[simp] theorem cont_withPort : (s.withPort x).cont = s.cont := rfl
@[simp] theorem clock_withPort : (s.withPort x).clock = s.clock := rfl
@[simp] theorem sync_withPort : (s.withPort x).sync = s.sync := rfl
@[simp] theorem sched_withPort : (s.withPort x).sched = s.sched := rfl
@[simp] theorem out_withPort : (s.withPort x).out = s.out := rfl
@[simp] theorem exch_withPort : (s.withPort x).exch = s.exch := rfl
@[simp] theorem cap_withPort : (s.withPort x).cap = s.cap := rfl
@[simp] theorem port_withPort : (s.withPort x).port = x := rfl
@[simp] theorem cfg_withPort : (s.withPort x).cfg = s.cfg := rfl
@[simp] theorem pins_withPort : (s.withPort x).pins = s.pins := rfl
@[simp] theorem owed_withPort : (s.withPort x).owed = s.owed := rfl
@[simp] theorem pending_withPort : (s.withPort x).pending = s.pending := rfl
@[simp] theorem withPort_self : s.withPort s.port = s := rfl
@[simp] theorem withPort_withPort (y : ServicePort) : (s.withPort x).withPort y = s.withPort y := rfl

end

/-! `withCfg` -/

section

variable (s : State) (x : Option ConfigBlock)

@[simp] theorem member_withCfg : (s.withCfg x).member = s.member := rfl
@[simp] theorem line_withCfg : (s.withCfg x).line = s.line := rfl
@[simp] theorem cont_withCfg : (s.withCfg x).cont = s.cont := rfl
@[simp] theorem clock_withCfg : (s.withCfg x).clock = s.clock := rfl
@[simp] theorem sync_withCfg : (s.withCfg x).sync = s.sync := rfl
@[simp] theorem sched_withCfg : (s.withCfg x).sched = s.sched := rfl
@[simp] theorem out_withCfg : (s.withCfg x).out = s.out := rfl
@[simp] theorem exch_withCfg : (s.withCfg x).exch = s.exch := rfl
@[simp] theorem cap_withCfg : (s.withCfg x).cap = s.cap := rfl
@[simp] theorem port_withCfg : (s.withCfg x).port = s.port := rfl
@[simp] theorem cfg_withCfg : (s.withCfg x).cfg = x := rfl
@[simp] theorem pins_withCfg : (s.withCfg x).pins = s.pins := rfl
@[simp] theorem owed_withCfg : (s.withCfg x).owed = s.owed := rfl
@[simp] theorem pending_withCfg : (s.withCfg x).pending = s.pending := rfl
@[simp] theorem withCfg_self : s.withCfg s.cfg = s := rfl
@[simp] theorem withCfg_withCfg (y : Option ConfigBlock) : (s.withCfg x).withCfg y = s.withCfg y := rfl

end

/-! `withPins` -/

section

variable (s : State) (x : BitVec 8)

@[simp] theorem member_withPins : (s.withPins x).member = s.member := rfl
@[simp] theorem line_withPins : (s.withPins x).line = s.line := rfl
@[simp] theorem cont_withPins : (s.withPins x).cont = s.cont := rfl
@[simp] theorem clock_withPins : (s.withPins x).clock = s.clock := rfl
@[simp] theorem sync_withPins : (s.withPins x).sync = s.sync := rfl
@[simp] theorem sched_withPins : (s.withPins x).sched = s.sched := rfl
@[simp] theorem out_withPins : (s.withPins x).out = s.out := rfl
@[simp] theorem exch_withPins : (s.withPins x).exch = s.exch := rfl
@[simp] theorem cap_withPins : (s.withPins x).cap = s.cap := rfl
@[simp] theorem port_withPins : (s.withPins x).port = s.port := rfl
@[simp] theorem cfg_withPins : (s.withPins x).cfg = s.cfg := rfl
@[simp] theorem pins_withPins : (s.withPins x).pins = x := rfl
@[simp] theorem owed_withPins : (s.withPins x).owed = s.owed := rfl
@[simp] theorem pending_withPins : (s.withPins x).pending = s.pending := rfl
@[simp] theorem withPins_self : s.withPins s.pins = s := rfl
@[simp] theorem withPins_withPins (y : BitVec 8) : (s.withPins x).withPins y = s.withPins y := rfl

end

/-! `withOwed` -/

section

variable (s : State) (x : Owed)

@[simp] theorem member_withOwed : (s.withOwed x).member = s.member := rfl
@[simp] theorem line_withOwed : (s.withOwed x).line = s.line := rfl
@[simp] theorem cont_withOwed : (s.withOwed x).cont = s.cont := rfl
@[simp] theorem clock_withOwed : (s.withOwed x).clock = s.clock := rfl
@[simp] theorem sync_withOwed : (s.withOwed x).sync = s.sync := rfl
@[simp] theorem sched_withOwed : (s.withOwed x).sched = s.sched := rfl
@[simp] theorem out_withOwed : (s.withOwed x).out = s.out := rfl
@[simp] theorem exch_withOwed : (s.withOwed x).exch = s.exch := rfl
@[simp] theorem cap_withOwed : (s.withOwed x).cap = s.cap := rfl
@[simp] theorem port_withOwed : (s.withOwed x).port = s.port := rfl
@[simp] theorem cfg_withOwed : (s.withOwed x).cfg = s.cfg := rfl
@[simp] theorem pins_withOwed : (s.withOwed x).pins = s.pins := rfl
@[simp] theorem owed_withOwed : (s.withOwed x).owed = x := rfl
@[simp] theorem pending_withOwed : (s.withOwed x).pending = s.pending := rfl
@[simp] theorem withOwed_self : s.withOwed s.owed = s := rfl
@[simp] theorem withOwed_withOwed (y : Owed) : (s.withOwed x).withOwed y = s.withOwed y := rfl

end

/-! `withPending` -/

section

variable (s : State) (x : List Instr)

@[simp] theorem member_withPending : (s.withPending x).member = s.member := rfl
@[simp] theorem line_withPending : (s.withPending x).line = s.line := rfl
@[simp] theorem cont_withPending : (s.withPending x).cont = s.cont := rfl
@[simp] theorem clock_withPending : (s.withPending x).clock = s.clock := rfl
@[simp] theorem sync_withPending : (s.withPending x).sync = s.sync := rfl
@[simp] theorem sched_withPending : (s.withPending x).sched = s.sched := rfl
@[simp] theorem out_withPending : (s.withPending x).out = s.out := rfl
@[simp] theorem exch_withPending : (s.withPending x).exch = s.exch := rfl
@[simp] theorem cap_withPending : (s.withPending x).cap = s.cap := rfl
@[simp] theorem port_withPending : (s.withPending x).port = s.port := rfl
@[simp] theorem cfg_withPending : (s.withPending x).cfg = s.cfg := rfl
@[simp] theorem pins_withPending : (s.withPending x).pins = s.pins := rfl
@[simp] theorem owed_withPending : (s.withPending x).owed = s.owed := rfl
@[simp] theorem pending_withPending : (s.withPending x).pending = x := rfl
@[simp] theorem withPending_self : s.withPending s.pending = s := rfl
@[simp] theorem withPending_withPending (y : List Instr) : (s.withPending x).withPending y = s.withPending y := rfl

end

/-! The views that a setter leaves as they are. -/

@[simp] theorem config_withMember (s : State) (x : Membership) : (s.withMember x).config = s.config := rfl
@[simp] theorem config_withLine (s : State) (x : LineUnit) : (s.withLine x).config = s.config := rfl
@[simp] theorem config_withCont (s : State) (x : Contention) : (s.withCont x).config = s.config := rfl
@[simp] theorem config_withClock (s : State) (x : ClockUnit) : (s.withClock x).config = s.config := rfl
@[simp] theorem config_withSync (s : State) (x : SyncUnit) : (s.withSync x).config = s.config := rfl
@[simp] theorem config_withSched (s : State) (x : Scheduler) : (s.withSched x).config = s.config := rfl
@[simp] theorem config_withOut (s : State) (x : OutputUnit) : (s.withOut x).config = s.config := rfl
@[simp] theorem config_withExch (s : State) (x : ExchangeUnit) : (s.withExch x).config = s.config := rfl
@[simp] theorem config_withCap (s : State) (x : CaptureUnit) : (s.withCap x).config = s.config := rfl
@[simp] theorem config_withPort (s : State) (x : ServicePort) : (s.withPort x).config = s.config := rfl
@[simp] theorem config_withPins (s : State) (x : BitVec 8) : (s.withPins x).config = s.config := rfl
@[simp] theorem config_withOwed (s : State) (x : Owed) : (s.withOwed x).config = s.config := rfl
@[simp] theorem config_withPending (s : State) (x : List Instr) : (s.withPending x).config = s.config := rfl
@[simp] theorem number_withLine (s : State) (x : LineUnit) : (s.withLine x).number = s.number := rfl
@[simp] theorem number_withCont (s : State) (x : Contention) : (s.withCont x).number = s.number := rfl
@[simp] theorem number_withClock (s : State) (x : ClockUnit) : (s.withClock x).number = s.number := rfl
@[simp] theorem number_withSync (s : State) (x : SyncUnit) : (s.withSync x).number = s.number := rfl
@[simp] theorem number_withSched (s : State) (x : Scheduler) : (s.withSched x).number = s.number := rfl
@[simp] theorem number_withOut (s : State) (x : OutputUnit) : (s.withOut x).number = s.number := rfl
@[simp] theorem number_withExch (s : State) (x : ExchangeUnit) : (s.withExch x).number = s.number := rfl
@[simp] theorem number_withCap (s : State) (x : CaptureUnit) : (s.withCap x).number = s.number := rfl
@[simp] theorem number_withPort (s : State) (x : ServicePort) : (s.withPort x).number = s.number := rfl
@[simp] theorem number_withCfg (s : State) (x : Option ConfigBlock) : (s.withCfg x).number = s.number := rfl
@[simp] theorem number_withPins (s : State) (x : BitVec 8) : (s.withPins x).number = s.number := rfl
@[simp] theorem number_withOwed (s : State) (x : Owed) : (s.withOwed x).number = s.number := rfl
@[simp] theorem number_withPending (s : State) (x : List Instr) : (s.withPending x).number = s.number := rfl
@[simp] theorem now_withMember (s : State) (x : Membership) : (s.withMember x).now = s.now := rfl
@[simp] theorem now_withLine (s : State) (x : LineUnit) : (s.withLine x).now = s.now := rfl
@[simp] theorem now_withCont (s : State) (x : Contention) : (s.withCont x).now = s.now := rfl
@[simp] theorem now_withSync (s : State) (x : SyncUnit) : (s.withSync x).now = s.now := rfl
@[simp] theorem now_withSched (s : State) (x : Scheduler) : (s.withSched x).now = s.now := rfl
@[simp] theorem now_withOut (s : State) (x : OutputUnit) : (s.withOut x).now = s.now := rfl
@[simp] theorem now_withExch (s : State) (x : ExchangeUnit) : (s.withExch x).now = s.now := rfl
@[simp] theorem now_withCap (s : State) (x : CaptureUnit) : (s.withCap x).now = s.now := rfl
@[simp] theorem now_withPort (s : State) (x : ServicePort) : (s.withPort x).now = s.now := rfl
@[simp] theorem now_withCfg (s : State) (x : Option ConfigBlock) : (s.withCfg x).now = s.now := rfl
@[simp] theorem now_withPins (s : State) (x : BitVec 8) : (s.withPins x).now = s.now := rfl
@[simp] theorem now_withOwed (s : State) (x : Owed) : (s.withOwed x).now = s.now := rfl
@[simp] theorem now_withPending (s : State) (x : List Instr) : (s.withPending x).now = s.now := rfl
@[simp] theorem valid_withMember (s : State) (x : Membership) : (s.withMember x).valid = s.valid := rfl
@[simp] theorem valid_withLine (s : State) (x : LineUnit) : (s.withLine x).valid = s.valid := rfl
@[simp] theorem valid_withCont (s : State) (x : Contention) : (s.withCont x).valid = s.valid := rfl
@[simp] theorem valid_withSync (s : State) (x : SyncUnit) : (s.withSync x).valid = s.valid := rfl
@[simp] theorem valid_withSched (s : State) (x : Scheduler) : (s.withSched x).valid = s.valid := rfl
@[simp] theorem valid_withOut (s : State) (x : OutputUnit) : (s.withOut x).valid = s.valid := rfl
@[simp] theorem valid_withExch (s : State) (x : ExchangeUnit) : (s.withExch x).valid = s.valid := rfl
@[simp] theorem valid_withCap (s : State) (x : CaptureUnit) : (s.withCap x).valid = s.valid := rfl
@[simp] theorem valid_withPort (s : State) (x : ServicePort) : (s.withPort x).valid = s.valid := rfl
@[simp] theorem valid_withCfg (s : State) (x : Option ConfigBlock) : (s.withCfg x).valid = s.valid := rfl
@[simp] theorem valid_withPins (s : State) (x : BitVec 8) : (s.withPins x).valid = s.valid := rfl
@[simp] theorem valid_withOwed (s : State) (x : Owed) : (s.withOwed x).valid = s.valid := rfl
@[simp] theorem valid_withPending (s : State) (x : List Instr) : (s.withPending x).valid = s.valid := rfl
@[simp] theorem stampTime_withMember (s : State) (x : Membership) : (s.withMember x).stampTime = s.stampTime := rfl
@[simp] theorem stampTime_withLine (s : State) (x : LineUnit) : (s.withLine x).stampTime = s.stampTime := rfl
@[simp] theorem stampTime_withCont (s : State) (x : Contention) : (s.withCont x).stampTime = s.stampTime := rfl
@[simp] theorem stampTime_withSync (s : State) (x : SyncUnit) : (s.withSync x).stampTime = s.stampTime := rfl
@[simp] theorem stampTime_withSched (s : State) (x : Scheduler) : (s.withSched x).stampTime = s.stampTime := rfl
@[simp] theorem stampTime_withOut (s : State) (x : OutputUnit) : (s.withOut x).stampTime = s.stampTime := rfl
@[simp] theorem stampTime_withExch (s : State) (x : ExchangeUnit) : (s.withExch x).stampTime = s.stampTime := rfl
@[simp] theorem stampTime_withCap (s : State) (x : CaptureUnit) : (s.withCap x).stampTime = s.stampTime := rfl
@[simp] theorem stampTime_withPort (s : State) (x : ServicePort) : (s.withPort x).stampTime = s.stampTime := rfl
@[simp] theorem stampTime_withCfg (s : State) (x : Option ConfigBlock) : (s.withCfg x).stampTime = s.stampTime := rfl
@[simp] theorem stampTime_withPins (s : State) (x : BitVec 8) : (s.withPins x).stampTime = s.stampTime := rfl
@[simp] theorem stampTime_withOwed (s : State) (x : Owed) : (s.withOwed x).stampTime = s.stampTime := rfl
@[simp] theorem stampTime_withPending (s : State) (x : List Instr) : (s.withPending x).stampTime = s.stampTime := rfl
@[simp] theorem unsynced_withMember (s : State) (x : Membership) : (s.withMember x).unsynced = s.unsynced := rfl
@[simp] theorem unsynced_withLine (s : State) (x : LineUnit) : (s.withLine x).unsynced = s.unsynced := rfl
@[simp] theorem unsynced_withCont (s : State) (x : Contention) : (s.withCont x).unsynced = s.unsynced := rfl
@[simp] theorem unsynced_withSync (s : State) (x : SyncUnit) : (s.withSync x).unsynced = s.unsynced := rfl
@[simp] theorem unsynced_withSched (s : State) (x : Scheduler) : (s.withSched x).unsynced = s.unsynced := rfl
@[simp] theorem unsynced_withOut (s : State) (x : OutputUnit) : (s.withOut x).unsynced = s.unsynced := rfl
@[simp] theorem unsynced_withExch (s : State) (x : ExchangeUnit) : (s.withExch x).unsynced = s.unsynced := rfl
@[simp] theorem unsynced_withCap (s : State) (x : CaptureUnit) : (s.withCap x).unsynced = s.unsynced := rfl
@[simp] theorem unsynced_withPort (s : State) (x : ServicePort) : (s.withPort x).unsynced = s.unsynced := rfl
@[simp] theorem unsynced_withCfg (s : State) (x : Option ConfigBlock) : (s.withCfg x).unsynced = s.unsynced := rfl
@[simp] theorem unsynced_withPins (s : State) (x : BitVec 8) : (s.withPins x).unsynced = s.unsynced := rfl
@[simp] theorem unsynced_withOwed (s : State) (x : Owed) : (s.withOwed x).unsynced = s.unsynced := rfl
@[simp] theorem unsynced_withPending (s : State) (x : List Instr) : (s.withPending x).unsynced = s.unsynced := rfl
@[simp] theorem spacingUnit_withMember (s : State) (x : Membership) : (s.withMember x).spacingUnit = s.spacingUnit := rfl
@[simp] theorem spacingUnit_withLine (s : State) (x : LineUnit) : (s.withLine x).spacingUnit = s.spacingUnit := rfl
@[simp] theorem spacingUnit_withCont (s : State) (x : Contention) : (s.withCont x).spacingUnit = s.spacingUnit := rfl
@[simp] theorem spacingUnit_withClock (s : State) (x : ClockUnit) : (s.withClock x).spacingUnit = s.spacingUnit := rfl
@[simp] theorem spacingUnit_withSync (s : State) (x : SyncUnit) : (s.withSync x).spacingUnit = s.spacingUnit := rfl
@[simp] theorem spacingUnit_withSched (s : State) (x : Scheduler) : (s.withSched x).spacingUnit = s.spacingUnit := rfl
@[simp] theorem spacingUnit_withOut (s : State) (x : OutputUnit) : (s.withOut x).spacingUnit = s.spacingUnit := rfl
@[simp] theorem spacingUnit_withExch (s : State) (x : ExchangeUnit) : (s.withExch x).spacingUnit = s.spacingUnit := rfl
@[simp] theorem spacingUnit_withCap (s : State) (x : CaptureUnit) : (s.withCap x).spacingUnit = s.spacingUnit := rfl
@[simp] theorem spacingUnit_withPort (s : State) (x : ServicePort) : (s.withPort x).spacingUnit = s.spacingUnit := rfl
@[simp] theorem spacingUnit_withPins (s : State) (x : BitVec 8) : (s.withPins x).spacingUnit = s.spacingUnit := rfl
@[simp] theorem spacingUnit_withOwed (s : State) (x : Owed) : (s.withOwed x).spacingUnit = s.spacingUnit := rfl
@[simp] theorem spacingUnit_withPending (s : State) (x : List Instr) : (s.withPending x).spacingUnit = s.spacingUnit := rfl
@[simp] theorem listenWindow_withLine (s : State) (x : LineUnit) : (s.withLine x).listenWindow = s.listenWindow := rfl
@[simp] theorem listenWindow_withCont (s : State) (x : Contention) : (s.withCont x).listenWindow = s.listenWindow := rfl
@[simp] theorem listenWindow_withClock (s : State) (x : ClockUnit) : (s.withClock x).listenWindow = s.listenWindow := rfl
@[simp] theorem listenWindow_withSync (s : State) (x : SyncUnit) : (s.withSync x).listenWindow = s.listenWindow := rfl
@[simp] theorem listenWindow_withSched (s : State) (x : Scheduler) : (s.withSched x).listenWindow = s.listenWindow := rfl
@[simp] theorem listenWindow_withOut (s : State) (x : OutputUnit) : (s.withOut x).listenWindow = s.listenWindow := rfl
@[simp] theorem listenWindow_withExch (s : State) (x : ExchangeUnit) : (s.withExch x).listenWindow = s.listenWindow := rfl
@[simp] theorem listenWindow_withCap (s : State) (x : CaptureUnit) : (s.withCap x).listenWindow = s.listenWindow := rfl
@[simp] theorem listenWindow_withPort (s : State) (x : ServicePort) : (s.withPort x).listenWindow = s.listenWindow := rfl
@[simp] theorem listenWindow_withPins (s : State) (x : BitVec 8) : (s.withPins x).listenWindow = s.listenWindow := rfl
@[simp] theorem listenWindow_withOwed (s : State) (x : Owed) : (s.withOwed x).listenWindow = s.listenWindow := rfl
@[simp] theorem listenWindow_withPending (s : State) (x : List Instr) : (s.withPending x).listenWindow = s.listenWindow := rfl
@[simp] theorem round_withMember (s : State) (x : Membership) : (s.withMember x).round = s.round := rfl
@[simp] theorem round_withLine (s : State) (x : LineUnit) : (s.withLine x).round = s.round := rfl
@[simp] theorem round_withCont (s : State) (x : Contention) : (s.withCont x).round = s.round := rfl
@[simp] theorem round_withSync (s : State) (x : SyncUnit) : (s.withSync x).round = s.round := rfl
@[simp] theorem round_withSched (s : State) (x : Scheduler) : (s.withSched x).round = s.round := rfl
@[simp] theorem round_withOut (s : State) (x : OutputUnit) : (s.withOut x).round = s.round := rfl
@[simp] theorem round_withExch (s : State) (x : ExchangeUnit) : (s.withExch x).round = s.round := rfl
@[simp] theorem round_withCap (s : State) (x : CaptureUnit) : (s.withCap x).round = s.round := rfl
@[simp] theorem round_withPort (s : State) (x : ServicePort) : (s.withPort x).round = s.round := rfl
@[simp] theorem round_withPins (s : State) (x : BitVec 8) : (s.withPins x).round = s.round := rfl
@[simp] theorem round_withOwed (s : State) (x : Owed) : (s.withOwed x).round = s.round := rfl
@[simp] theorem round_withPending (s : State) (x : List Instr) : (s.withPending x).round = s.round := rfl
@[simp] theorem busy_withMember (s : State) (x : Membership) : (s.withMember x).busy = s.busy := rfl
@[simp] theorem busy_withLine (s : State) (x : LineUnit) : (s.withLine x).busy = s.busy := rfl
@[simp] theorem busy_withCont (s : State) (x : Contention) : (s.withCont x).busy = s.busy := rfl
@[simp] theorem busy_withClock (s : State) (x : ClockUnit) : (s.withClock x).busy = s.busy := rfl
@[simp] theorem busy_withSync (s : State) (x : SyncUnit) : (s.withSync x).busy = s.busy := rfl
@[simp] theorem busy_withSched (s : State) (x : Scheduler) : (s.withSched x).busy = s.busy := rfl
@[simp] theorem busy_withOut (s : State) (x : OutputUnit) : (s.withOut x).busy = s.busy := rfl
@[simp] theorem busy_withExch (s : State) (x : ExchangeUnit) : (s.withExch x).busy = s.busy := rfl
@[simp] theorem busy_withCap (s : State) (x : CaptureUnit) : (s.withCap x).busy = s.busy := rfl
@[simp] theorem busy_withCfg (s : State) (x : Option ConfigBlock) : (s.withCfg x).busy = s.busy := rfl
@[simp] theorem busy_withPins (s : State) (x : BitVec 8) : (s.withPins x).busy = s.busy := rfl
@[simp] theorem busy_withOwed (s : State) (x : Owed) : (s.withOwed x).busy = s.busy := rfl
@[simp] theorem busy_withPending (s : State) (x : List Instr) : (s.withPending x).busy = s.busy := rfl
@[simp] theorem attnDue_withMember (s : State) (x : Membership) : (s.withMember x).attnDue = s.attnDue := rfl
@[simp] theorem attnDue_withLine (s : State) (x : LineUnit) : (s.withLine x).attnDue = s.attnDue := rfl
@[simp] theorem attnDue_withCont (s : State) (x : Contention) : (s.withCont x).attnDue = s.attnDue := rfl
@[simp] theorem attnDue_withClock (s : State) (x : ClockUnit) : (s.withClock x).attnDue = s.attnDue := rfl
@[simp] theorem attnDue_withSync (s : State) (x : SyncUnit) : (s.withSync x).attnDue = s.attnDue := rfl
@[simp] theorem attnDue_withSched (s : State) (x : Scheduler) : (s.withSched x).attnDue = s.attnDue := rfl
@[simp] theorem attnDue_withOut (s : State) (x : OutputUnit) : (s.withOut x).attnDue = s.attnDue := rfl
@[simp] theorem attnDue_withExch (s : State) (x : ExchangeUnit) : (s.withExch x).attnDue = s.attnDue := rfl
@[simp] theorem attnDue_withPins (s : State) (x : BitVec 8) : (s.withPins x).attnDue = s.attnDue := rfl
@[simp] theorem attnDue_withOwed (s : State) (x : Owed) : (s.withOwed x).attnDue = s.attnDue := rfl
@[simp] theorem attnDue_withPending (s : State) (x : List Instr) : (s.withPending x).attnDue = s.attnDue := rfl
@[simp] theorem noneSynced_withMember (s : State) (x : Membership) : (s.withMember x).noneSynced = s.noneSynced := rfl
@[simp] theorem noneSynced_withLine (s : State) (x : LineUnit) : (s.withLine x).noneSynced = s.noneSynced := rfl
@[simp] theorem noneSynced_withCont (s : State) (x : Contention) : (s.withCont x).noneSynced = s.noneSynced := rfl
@[simp] theorem noneSynced_withClock (s : State) (x : ClockUnit) : (s.withClock x).noneSynced = s.noneSynced := rfl
@[simp] theorem noneSynced_withSched (s : State) (x : Scheduler) : (s.withSched x).noneSynced = s.noneSynced := rfl
@[simp] theorem noneSynced_withOut (s : State) (x : OutputUnit) : (s.withOut x).noneSynced = s.noneSynced := rfl
@[simp] theorem noneSynced_withExch (s : State) (x : ExchangeUnit) : (s.withExch x).noneSynced = s.noneSynced := rfl
@[simp] theorem noneSynced_withCap (s : State) (x : CaptureUnit) : (s.withCap x).noneSynced = s.noneSynced := rfl
@[simp] theorem noneSynced_withPort (s : State) (x : ServicePort) : (s.withPort x).noneSynced = s.noneSynced := rfl
@[simp] theorem noneSynced_withCfg (s : State) (x : Option ConfigBlock) : (s.withCfg x).noneSynced = s.noneSynced := rfl
@[simp] theorem noneSynced_withPins (s : State) (x : BitVec 8) : (s.withPins x).noneSynced = s.noneSynced := rfl
@[simp] theorem noneSynced_withOwed (s : State) (x : Owed) : (s.withOwed x).noneSynced = s.noneSynced := rfl
@[simp] theorem noneSynced_withPending (s : State) (x : List Instr) : (s.withPending x).noneSynced = s.noneSynced := rfl
@[simp] theorem synced_withLine (s : State) (x : LineUnit) : (s.withLine x).synced = s.synced := rfl
@[simp] theorem synced_withCont (s : State) (x : Contention) : (s.withCont x).synced = s.synced := rfl
@[simp] theorem synced_withSync (s : State) (x : SyncUnit) : (s.withSync x).synced = s.synced := rfl
@[simp] theorem synced_withSched (s : State) (x : Scheduler) : (s.withSched x).synced = s.synced := rfl
@[simp] theorem synced_withOut (s : State) (x : OutputUnit) : (s.withOut x).synced = s.synced := rfl
@[simp] theorem synced_withExch (s : State) (x : ExchangeUnit) : (s.withExch x).synced = s.synced := rfl
@[simp] theorem synced_withCap (s : State) (x : CaptureUnit) : (s.withCap x).synced = s.synced := rfl
@[simp] theorem synced_withPort (s : State) (x : ServicePort) : (s.withPort x).synced = s.synced := rfl
@[simp] theorem synced_withCfg (s : State) (x : Option ConfigBlock) : (s.withCfg x).synced = s.synced := rfl
@[simp] theorem synced_withPins (s : State) (x : BitVec 8) : (s.withPins x).synced = s.synced := rfl
@[simp] theorem synced_withOwed (s : State) (x : Owed) : (s.withOwed x).synced = s.synced := rfl
@[simp] theorem synced_withPending (s : State) (x : List Instr) : (s.withPending x).synced = s.synced := rfl
@[simp] theorem enabled_withMember (s : State) (x : Membership) (i : Fin 8) : (s.withMember x).enabled i = s.enabled i := rfl
@[simp] theorem enabled_withLine (s : State) (x : LineUnit) (i : Fin 8) : (s.withLine x).enabled i = s.enabled i := rfl
@[simp] theorem enabled_withCont (s : State) (x : Contention) (i : Fin 8) : (s.withCont x).enabled i = s.enabled i := rfl
@[simp] theorem enabled_withClock (s : State) (x : ClockUnit) (i : Fin 8) : (s.withClock x).enabled i = s.enabled i := rfl
@[simp] theorem enabled_withSync (s : State) (x : SyncUnit) (i : Fin 8) : (s.withSync x).enabled i = s.enabled i := rfl
@[simp] theorem enabled_withSched (s : State) (x : Scheduler) (i : Fin 8) : (s.withSched x).enabled i = s.enabled i := rfl
@[simp] theorem enabled_withOut (s : State) (x : OutputUnit) (i : Fin 8) : (s.withOut x).enabled i = s.enabled i := rfl
@[simp] theorem enabled_withExch (s : State) (x : ExchangeUnit) (i : Fin 8) : (s.withExch x).enabled i = s.enabled i := rfl
@[simp] theorem enabled_withCap (s : State) (x : CaptureUnit) (i : Fin 8) : (s.withCap x).enabled i = s.enabled i := rfl
@[simp] theorem enabled_withPort (s : State) (x : ServicePort) (i : Fin 8) : (s.withPort x).enabled i = s.enabled i := rfl
@[simp] theorem enabled_withPins (s : State) (x : BitVec 8) (i : Fin 8) : (s.withPins x).enabled i = s.enabled i := rfl
@[simp] theorem enabled_withOwed (s : State) (x : Owed) (i : Fin 8) : (s.withOwed x).enabled i = s.enabled i := rfl
@[simp] theorem enabled_withPending (s : State) (x : List Instr) (i : Fin 8) : (s.withPending x).enabled i = s.enabled i := rfl
@[simp] theorem defaultHigh_withMember (s : State) (x : Membership) (i : Fin 8) : (s.withMember x).defaultHigh i = s.defaultHigh i := rfl
@[simp] theorem defaultHigh_withLine (s : State) (x : LineUnit) (i : Fin 8) : (s.withLine x).defaultHigh i = s.defaultHigh i := rfl
@[simp] theorem defaultHigh_withCont (s : State) (x : Contention) (i : Fin 8) : (s.withCont x).defaultHigh i = s.defaultHigh i := rfl
@[simp] theorem defaultHigh_withClock (s : State) (x : ClockUnit) (i : Fin 8) : (s.withClock x).defaultHigh i = s.defaultHigh i := rfl
@[simp] theorem defaultHigh_withSync (s : State) (x : SyncUnit) (i : Fin 8) : (s.withSync x).defaultHigh i = s.defaultHigh i := rfl
@[simp] theorem defaultHigh_withSched (s : State) (x : Scheduler) (i : Fin 8) : (s.withSched x).defaultHigh i = s.defaultHigh i := rfl
@[simp] theorem defaultHigh_withOut (s : State) (x : OutputUnit) (i : Fin 8) : (s.withOut x).defaultHigh i = s.defaultHigh i := rfl
@[simp] theorem defaultHigh_withExch (s : State) (x : ExchangeUnit) (i : Fin 8) : (s.withExch x).defaultHigh i = s.defaultHigh i := rfl
@[simp] theorem defaultHigh_withCap (s : State) (x : CaptureUnit) (i : Fin 8) : (s.withCap x).defaultHigh i = s.defaultHigh i := rfl
@[simp] theorem defaultHigh_withPort (s : State) (x : ServicePort) (i : Fin 8) : (s.withPort x).defaultHigh i = s.defaultHigh i := rfl
@[simp] theorem defaultHigh_withPins (s : State) (x : BitVec 8) (i : Fin 8) : (s.withPins x).defaultHigh i = s.defaultHigh i := rfl
@[simp] theorem defaultHigh_withOwed (s : State) (x : Owed) (i : Fin 8) : (s.withOwed x).defaultHigh i = s.defaultHigh i := rfl
@[simp] theorem defaultHigh_withPending (s : State) (x : List Instr) (i : Fin 8) : (s.withPending x).defaultHigh i = s.defaultHigh i := rfl
@[simp] theorem passes_withMember (s : State) (x : Membership) (i : Half) : (s.withMember x).passes i = s.passes i := rfl
@[simp] theorem passes_withLine (s : State) (x : LineUnit) (i : Half) : (s.withLine x).passes i = s.passes i := rfl
@[simp] theorem passes_withCont (s : State) (x : Contention) (i : Half) : (s.withCont x).passes i = s.passes i := rfl
@[simp] theorem passes_withClock (s : State) (x : ClockUnit) (i : Half) : (s.withClock x).passes i = s.passes i := rfl
@[simp] theorem passes_withSync (s : State) (x : SyncUnit) (i : Half) : (s.withSync x).passes i = s.passes i := rfl
@[simp] theorem passes_withSched (s : State) (x : Scheduler) (i : Half) : (s.withSched x).passes i = s.passes i := rfl
@[simp] theorem passes_withOut (s : State) (x : OutputUnit) (i : Half) : (s.withOut x).passes i = s.passes i := rfl
@[simp] theorem passes_withCap (s : State) (x : CaptureUnit) (i : Half) : (s.withCap x).passes i = s.passes i := rfl
@[simp] theorem passes_withPort (s : State) (x : ServicePort) (i : Half) : (s.withPort x).passes i = s.passes i := rfl
@[simp] theorem passes_withCfg (s : State) (x : Option ConfigBlock) (i : Half) : (s.withCfg x).passes i = s.passes i := rfl
@[simp] theorem passes_withPins (s : State) (x : BitVec 8) (i : Half) : (s.withPins x).passes i = s.passes i := rfl
@[simp] theorem passes_withOwed (s : State) (x : Owed) (i : Half) : (s.withOwed x).passes i = s.passes i := rfl
@[simp] theorem passes_withPending (s : State) (x : List Instr) (i : Half) : (s.withPending x).passes i = s.passes i := rfl

end Sys2Proof.Machine.State
end

