-- ==== Sys2Proof/Laws/Ops.lean ====
section
/-! SUPPORT. The shared operations of Machine/Ops.lean, each by what it can do: a frame (the blocks it leaves as they are) and a
list of its outcomes. Proofs about the rows cite these and do not unfold the operations. -/

namespace Sys2Proof.Machine

/-! `refreshAttn` changes only port. -/

section

variable (s : State) 

@[simp] theorem State.member_refreshAttn : (s.refreshAttn).member = s.member := rfl
@[simp] theorem State.line_refreshAttn : (s.refreshAttn).line = s.line := rfl
@[simp] theorem State.cont_refreshAttn : (s.refreshAttn).cont = s.cont := rfl
@[simp] theorem State.clock_refreshAttn : (s.refreshAttn).clock = s.clock := rfl
@[simp] theorem State.sync_refreshAttn : (s.refreshAttn).sync = s.sync := rfl
@[simp] theorem State.sched_refreshAttn : (s.refreshAttn).sched = s.sched := rfl
@[simp] theorem State.out_refreshAttn : (s.refreshAttn).out = s.out := rfl
@[simp] theorem State.exch_refreshAttn : (s.refreshAttn).exch = s.exch := rfl
@[simp] theorem State.cap_refreshAttn : (s.refreshAttn).cap = s.cap := rfl
@[simp] theorem State.cfg_refreshAttn : (s.refreshAttn).cfg = s.cfg := rfl
@[simp] theorem State.pins_refreshAttn : (s.refreshAttn).pins = s.pins := rfl
@[simp] theorem State.owed_refreshAttn : (s.refreshAttn).owed = s.owed := rfl
@[simp] theorem State.pending_refreshAttn : (s.refreshAttn).pending = s.pending := rfl

end

/-! `queueReport` changes only port. -/

section

variable (s : State) (r : Report)

@[simp] theorem State.member_queueReport : (s.queueReport r).member = s.member := rfl
@[simp] theorem State.line_queueReport : (s.queueReport r).line = s.line := rfl
@[simp] theorem State.cont_queueReport : (s.queueReport r).cont = s.cont := rfl
@[simp] theorem State.clock_queueReport : (s.queueReport r).clock = s.clock := rfl
@[simp] theorem State.sync_queueReport : (s.queueReport r).sync = s.sync := rfl
@[simp] theorem State.sched_queueReport : (s.queueReport r).sched = s.sched := rfl
@[simp] theorem State.out_queueReport : (s.queueReport r).out = s.out := rfl
@[simp] theorem State.exch_queueReport : (s.queueReport r).exch = s.exch := rfl
@[simp] theorem State.cap_queueReport : (s.queueReport r).cap = s.cap := rfl
@[simp] theorem State.cfg_queueReport : (s.queueReport r).cfg = s.cfg := rfl
@[simp] theorem State.pins_queueReport : (s.queueReport r).pins = s.pins := rfl
@[simp] theorem State.owed_queueReport : (s.queueReport r).owed = s.owed := rfl
@[simp] theorem State.pending_queueReport : (s.queueReport r).pending = s.pending := rfl

end

/-! `report` changes only port. -/

section

variable (s : State) (d : ReportDetail)

@[simp] theorem State.member_report : (s.report d).member = s.member := rfl
@[simp] theorem State.line_report : (s.report d).line = s.line := rfl
@[simp] theorem State.cont_report : (s.report d).cont = s.cont := rfl
@[simp] theorem State.clock_report : (s.report d).clock = s.clock := rfl
@[simp] theorem State.sync_report : (s.report d).sync = s.sync := rfl
@[simp] theorem State.sched_report : (s.report d).sched = s.sched := rfl
@[simp] theorem State.out_report : (s.report d).out = s.out := rfl
@[simp] theorem State.exch_report : (s.report d).exch = s.exch := rfl
@[simp] theorem State.cap_report : (s.report d).cap = s.cap := rfl
@[simp] theorem State.cfg_report : (s.report d).cfg = s.cfg := rfl
@[simp] theorem State.pins_report : (s.report d).pins = s.pins := rfl
@[simp] theorem State.owed_report : (s.report d).owed = s.owed := rfl
@[simp] theorem State.pending_report : (s.report d).pending = s.pending := rfl

end

/-! `queueReports` changes only port. -/

section

variable (s : State) (l : List Report)

@[simp] theorem State.member_queueReports : (s.queueReports l).member = s.member := by
  induction l generalizing s with
  | nil => rfl
  | cons r rest ih => exact (ih (s.queueReport r)).trans (State.member_queueReport s r)
@[simp] theorem State.line_queueReports : (s.queueReports l).line = s.line := by
  induction l generalizing s with
  | nil => rfl
  | cons r rest ih => exact (ih (s.queueReport r)).trans (State.line_queueReport s r)
@[simp] theorem State.cont_queueReports : (s.queueReports l).cont = s.cont := by
  induction l generalizing s with
  | nil => rfl
  | cons r rest ih => exact (ih (s.queueReport r)).trans (State.cont_queueReport s r)
@[simp] theorem State.clock_queueReports : (s.queueReports l).clock = s.clock := by
  induction l generalizing s with
  | nil => rfl
  | cons r rest ih => exact (ih (s.queueReport r)).trans (State.clock_queueReport s r)
@[simp] theorem State.sync_queueReports : (s.queueReports l).sync = s.sync := by
  induction l generalizing s with
  | nil => rfl
  | cons r rest ih => exact (ih (s.queueReport r)).trans (State.sync_queueReport s r)
@[simp] theorem State.sched_queueReports : (s.queueReports l).sched = s.sched := by
  induction l generalizing s with
  | nil => rfl
  | cons r rest ih => exact (ih (s.queueReport r)).trans (State.sched_queueReport s r)
@[simp] theorem State.out_queueReports : (s.queueReports l).out = s.out := by
  induction l generalizing s with
  | nil => rfl
  | cons r rest ih => exact (ih (s.queueReport r)).trans (State.out_queueReport s r)
@[simp] theorem State.exch_queueReports : (s.queueReports l).exch = s.exch := by
  induction l generalizing s with
  | nil => rfl
  | cons r rest ih => exact (ih (s.queueReport r)).trans (State.exch_queueReport s r)
@[simp] theorem State.cap_queueReports : (s.queueReports l).cap = s.cap := by
  induction l generalizing s with
  | nil => rfl
  | cons r rest ih => exact (ih (s.queueReport r)).trans (State.cap_queueReport s r)
@[simp] theorem State.cfg_queueReports : (s.queueReports l).cfg = s.cfg := by
  induction l generalizing s with
  | nil => rfl
  | cons r rest ih => exact (ih (s.queueReport r)).trans (State.cfg_queueReport s r)
@[simp] theorem State.pins_queueReports : (s.queueReports l).pins = s.pins := by
  induction l generalizing s with
  | nil => rfl
  | cons r rest ih => exact (ih (s.queueReport r)).trans (State.pins_queueReport s r)
@[simp] theorem State.owed_queueReports : (s.queueReports l).owed = s.owed := by
  induction l generalizing s with
  | nil => rfl
  | cons r rest ih => exact (ih (s.queueReport r)).trans (State.owed_queueReport s r)
@[simp] theorem State.pending_queueReports : (s.queueReports l).pending = s.pending := by
  induction l generalizing s with
  | nil => rfl
  | cons r rest ih => exact (ih (s.queueReport r)).trans (State.pending_queueReport s r)

end

/-! ### Reports (R181, R183) -/

@[simp] theorem State.reports_refreshAttn (s : State) : s.refreshAttn.port.reports = s.port.reports := rfl

theorem State.refreshAttn_eq (s : State) : s.refreshAttn = s.withPort { s.port with attn := s.attnDue } := rfl

@[simp] theorem State.attn_refreshAttn (s : State) : s.refreshAttn.port.attn = s.attnDue := rfl

@[simp] theorem State.reports_queueReport (s : State) (r : Report) :
    (s.queueReport r).port.reports = arrive s.port.reports r := rfl

/-- A report goes to the queue, ATTN follows, and nothing else of the port moves. -/
theorem State.queueReport_eq (s : State) (r : Report) :
    s.queueReport r = s.withPort { s.port with reports := arrive s.port.reports r,
                                               attn := (s.queueReport r).port.attn } := rfl

theorem State.report_eq (s : State) (d : ReportDetail) :
    s.report d = s.queueReport { detail := d, stamp := s.stampTime, unsynced := s.unsynced } := rfl

/-- Reports that are queued one after another go to the queue in that order. -/
@[simp] theorem State.reports_queueReports (s : State) (l : List Report) :
    (s.queueReports l).port.reports = l.foldl arrive s.port.reports := by
  induction l generalizing s with
  | nil => rfl
  | cons r rest ih => exact ih (s.queueReport r)

/-- The three outcomes of an arrival (R181). -/
theorem arrive_cases (queue : List Report) (r : Report) :
    (∃ kept lost st u, queue = kept ++ [⟨.overflow lost, st, u⟩]
      ∧ arrive queue r = kept ++ [⟨.overflow (min (lost + 1) Config.lostLimit), st, u⟩])
    ∨ ((∀ x ∈ queue.getLast?, ∀ lost, x.detail ≠ .overflow lost)
      ∧ ((queue.length + 1 < 32 ∧ arrive queue r = queue ++ [r])
        ∨ (queue.length = 31 ∧ arrive queue r = queue ++ [{ r with detail := .overflow 1 }])
        ∨ (32 ≤ queue.length ∧ arrive queue r = queue))) := by
  rcases h : queue.getLast? with _ | ⟨d, st, u⟩
  · right
    refine ⟨by simp, Or.inl ?_⟩
    obtain rfl : queue = [] := by simpa using h
    simp [arrive, Config.reportPlaces]
  · by_cases ho : ∃ lost, d = .overflow lost
    · obtain ⟨lost, rfl⟩ := ho
      left
      refine ⟨queue.dropLast, lost, st, u, ?_, ?_⟩
      · exact (List.dropLast_append_getLast? _ h).symm
      · simp [arrive, h]
    · right
      have hn : ∀ lost, d ≠ .overflow lost := fun lost e => ho ⟨lost, e⟩
      refine ⟨by simpa using hn, ?_⟩
      have ha : arrive queue r = if queue.length + 1 < Config.reportPlaces then queue ++ [r]
          else if queue.length < Config.reportPlaces then queue ++ [{ r with detail := .overflow 1 }] else queue := by
        unfold arrive
        rw [h]
        cases d <;> simp_all
      rw [ha]
      have places : Config.reportPlaces = 32 := rfl
      by_cases h1 : queue.length + 1 < Config.reportPlaces
      · exact .inl ⟨h1, if_pos h1⟩
      · rw [if_neg h1]
        by_cases h2 : queue.length < Config.reportPlaces
        · exact .inr (.inl ⟨by omega, if_pos h2⟩)
        · exact .inr (.inr ⟨by omega, if_neg h2⟩)

/-- While fewer than 31 reports are held and none of them is last as OVERFLOW, an arrival is appended (R181). -/
theorem arrive_room {queue : List Report} (r : Report) (room : queue.length + 1 < 32)
    (last : ∀ x ∈ queue.getLast?, ∀ lost, x.detail ≠ .overflow lost) : arrive queue r = queue ++ [r] := by
  rcases arrive_cases queue r with ⟨kept, lost, st, u, hq, _⟩ | ⟨_, h | h | h⟩
  · exact absurd rfl (last ⟨.overflow lost, st, u⟩ (by simp [hq]) lost)
  · exact h.2
  · omega
  · omega

/-! ### The log (R155, R156) -/

/-! `logLoss` changes only port, cap. -/

section

variable (s : State) (d : Option Half)

@[simp] theorem State.member_logLoss : (s.logLoss d).member = s.member := by unfold State.logLoss; split <;> rfl
@[simp] theorem State.line_logLoss : (s.logLoss d).line = s.line := by unfold State.logLoss; split <;> rfl
@[simp] theorem State.cont_logLoss : (s.logLoss d).cont = s.cont := by unfold State.logLoss; split <;> rfl
@[simp] theorem State.clock_logLoss : (s.logLoss d).clock = s.clock := by unfold State.logLoss; split <;> rfl
@[simp] theorem State.sync_logLoss : (s.logLoss d).sync = s.sync := by unfold State.logLoss; split <;> rfl
@[simp] theorem State.sched_logLoss : (s.logLoss d).sched = s.sched := by unfold State.logLoss; split <;> rfl
@[simp] theorem State.out_logLoss : (s.logLoss d).out = s.out := by unfold State.logLoss; split <;> rfl
@[simp] theorem State.exch_logLoss : (s.logLoss d).exch = s.exch := by unfold State.logLoss; split <;> rfl
@[simp] theorem State.cfg_logLoss : (s.logLoss d).cfg = s.cfg := by unfold State.logLoss; split <;> rfl
@[simp] theorem State.pins_logLoss : (s.logLoss d).pins = s.pins := by unfold State.logLoss; split <;> rfl
@[simp] theorem State.owed_logLoss : (s.logLoss d).owed = s.owed := by unfold State.logLoss; split <;> rfl
@[simp] theorem State.pending_logLoss : (s.logLoss d).pending = s.pending := by unfold State.logLoss; split <;> rfl

end

/-! `appendLog` changes only port, cap. -/

section

variable (s : State) (kept : List LogRecord) (body : LogBody)

@[simp] theorem State.member_appendLog : (s.appendLog kept body).member = s.member := rfl
@[simp] theorem State.line_appendLog : (s.appendLog kept body).line = s.line := rfl
@[simp] theorem State.cont_appendLog : (s.appendLog kept body).cont = s.cont := rfl
@[simp] theorem State.clock_appendLog : (s.appendLog kept body).clock = s.clock := rfl
@[simp] theorem State.sync_appendLog : (s.appendLog kept body).sync = s.sync := rfl
@[simp] theorem State.sched_appendLog : (s.appendLog kept body).sched = s.sched := rfl
@[simp] theorem State.out_appendLog : (s.appendLog kept body).out = s.out := rfl
@[simp] theorem State.exch_appendLog : (s.appendLog kept body).exch = s.exch := rfl
@[simp] theorem State.cfg_appendLog : (s.appendLog kept body).cfg = s.cfg := rfl
@[simp] theorem State.pins_appendLog : (s.appendLog kept body).pins = s.pins := rfl
@[simp] theorem State.owed_appendLog : (s.appendLog kept body).owed = s.owed := rfl
@[simp] theorem State.pending_appendLog : (s.appendLog kept body).pending = s.pending := rfl

end

/-! `enterLog` changes only port, cap. -/

section

variable (s : State) (body : LogBody)

@[simp] theorem State.member_enterLog : ((s.enterLog body).1).member = s.member := by
  unfold State.enterLog; split
  · simp
  · split <;> simp
@[simp] theorem State.line_enterLog : ((s.enterLog body).1).line = s.line := by
  unfold State.enterLog; split
  · simp
  · split <;> simp
@[simp] theorem State.cont_enterLog : ((s.enterLog body).1).cont = s.cont := by
  unfold State.enterLog; split
  · simp
  · split <;> simp
@[simp] theorem State.clock_enterLog : ((s.enterLog body).1).clock = s.clock := by
  unfold State.enterLog; split
  · simp
  · split <;> simp
@[simp] theorem State.sync_enterLog : ((s.enterLog body).1).sync = s.sync := by
  unfold State.enterLog; split
  · simp
  · split <;> simp
@[simp] theorem State.sched_enterLog : ((s.enterLog body).1).sched = s.sched := by
  unfold State.enterLog; split
  · simp
  · split <;> simp
@[simp] theorem State.out_enterLog : ((s.enterLog body).1).out = s.out := by
  unfold State.enterLog; split
  · simp
  · split <;> simp
@[simp] theorem State.exch_enterLog : ((s.enterLog body).1).exch = s.exch := by
  unfold State.enterLog; split
  · simp
  · split <;> simp
@[simp] theorem State.cfg_enterLog : ((s.enterLog body).1).cfg = s.cfg := by
  unfold State.enterLog; split
  · simp
  · split <;> simp
@[simp] theorem State.pins_enterLog : ((s.enterLog body).1).pins = s.pins := by
  unfold State.enterLog; split
  · simp
  · split <;> simp
@[simp] theorem State.owed_enterLog : ((s.enterLog body).1).owed = s.owed := by
  unfold State.enterLog; split
  · simp
  · split <;> simp
@[simp] theorem State.pending_enterLog : ((s.enterLog body).1).pending = s.pending := by
  unfold State.enterLog; split
  · simp
  · split <;> simp

end

@[simp] theorem State.log_appendLog (s : State) (kept : List LogRecord) (body : LogBody) :
    (s.appendLog kept body).cap.log = kept ++ [{ sequence := s.cap.logCounter, body := body }] := rfl

@[simp] theorem State.log_logLoss (s : State) (d : Option Half) : (s.logLoss d).cap.log = s.cap.log := by
  unfold State.logLoss; split <;> rfl

@[simp] theorem State.logCounter_logLoss (s : State) (d : Option Half) : (s.logLoss d).cap.logCounter = s.cap.logCounter := by
  unfold State.logLoss; split <;> rfl

/-- A record at a log with room is entered with the next sequence (R155). -/
theorem State.enterLog_room {s : State} (body : LogBody) (room : s.cap.log.length < 64) :
    s.enterLog body = (s.appendLog s.cap.log body, some s.cap.logCounter) := by
  simp [State.enterLog, Config.logPlaces, room]

/-- A record at a full log: discarded under STOP, entered for the oldest under WRAP (R156). -/
theorem State.enterLog_full {s : State} (body : LogBody) (full : 64 ≤ s.cap.log.length) :
    (s.config.logPolicy = .stop → s.enterLog body = (s.logLoss none, none))
    ∧ (s.config.logPolicy = .wrap → s.enterLog body =
        ((s.appendLog s.cap.log.tail body).logLoss (s.cap.log.head?.map (·.sequence)), some s.cap.logCounter)) := by
  have : ¬ s.cap.log.length < 64 := by omega
  constructor <;> intro h <;> simp [State.enterLog, Config.logPlaces, this, h]

/-! ### Requests to the contention unit (R19–R21) -/

/-! `enqueue` changes only cont. -/

section

variable (s : State) (r : TxRecord)

@[simp] theorem State.member_enqueue : ((s.enqueue r).1).member = s.member := by
  unfold State.enqueue; split
  · rfl
  · split <;> rfl
@[simp] theorem State.line_enqueue : ((s.enqueue r).1).line = s.line := by
  unfold State.enqueue; split
  · rfl
  · split <;> rfl
@[simp] theorem State.clock_enqueue : ((s.enqueue r).1).clock = s.clock := by
  unfold State.enqueue; split
  · rfl
  · split <;> rfl
@[simp] theorem State.sync_enqueue : ((s.enqueue r).1).sync = s.sync := by
  unfold State.enqueue; split
  · rfl
  · split <;> rfl
@[simp] theorem State.sched_enqueue : ((s.enqueue r).1).sched = s.sched := by
  unfold State.enqueue; split
  · rfl
  · split <;> rfl
@[simp] theorem State.out_enqueue : ((s.enqueue r).1).out = s.out := by
  unfold State.enqueue; split
  · rfl
  · split <;> rfl
@[simp] theorem State.exch_enqueue : ((s.enqueue r).1).exch = s.exch := by
  unfold State.enqueue; split
  · rfl
  · split <;> rfl
@[simp] theorem State.cap_enqueue : ((s.enqueue r).1).cap = s.cap := by
  unfold State.enqueue; split
  · rfl
  · split <;> rfl
@[simp] theorem State.port_enqueue : ((s.enqueue r).1).port = s.port := by
  unfold State.enqueue; split
  · rfl
  · split <;> rfl
@[simp] theorem State.cfg_enqueue : ((s.enqueue r).1).cfg = s.cfg := by
  unfold State.enqueue; split
  · rfl
  · split <;> rfl
@[simp] theorem State.pins_enqueue : ((s.enqueue r).1).pins = s.pins := by
  unfold State.enqueue; split
  · rfl
  · split <;> rfl
@[simp] theorem State.owed_enqueue : ((s.enqueue r).1).owed = s.owed := by
  unfold State.enqueue; split
  · rfl
  · split <;> rfl
@[simp] theorem State.pending_enqueue : ((s.enqueue r).1).pending = s.pending := by
  unfold State.enqueue; split
  · rfl
  · split <;> rfl

end

/-! `requestBeacon` changes only cont. -/

section

variable (s : State) (b : BeaconBody)

@[simp] theorem State.member_requestBeacon : (s.requestBeacon b).member = s.member := by unfold State.requestBeacon; split <;> rfl
@[simp] theorem State.line_requestBeacon : (s.requestBeacon b).line = s.line := by unfold State.requestBeacon; split <;> rfl
@[simp] theorem State.clock_requestBeacon : (s.requestBeacon b).clock = s.clock := by unfold State.requestBeacon; split <;> rfl
@[simp] theorem State.sync_requestBeacon : (s.requestBeacon b).sync = s.sync := by unfold State.requestBeacon; split <;> rfl
@[simp] theorem State.sched_requestBeacon : (s.requestBeacon b).sched = s.sched := by unfold State.requestBeacon; split <;> rfl
@[simp] theorem State.out_requestBeacon : (s.requestBeacon b).out = s.out := by unfold State.requestBeacon; split <;> rfl
@[simp] theorem State.exch_requestBeacon : (s.requestBeacon b).exch = s.exch := by unfold State.requestBeacon; split <;> rfl
@[simp] theorem State.cap_requestBeacon : (s.requestBeacon b).cap = s.cap := by unfold State.requestBeacon; split <;> rfl
@[simp] theorem State.port_requestBeacon : (s.requestBeacon b).port = s.port := by unfold State.requestBeacon; split <;> rfl
@[simp] theorem State.cfg_requestBeacon : (s.requestBeacon b).cfg = s.cfg := by unfold State.requestBeacon; split <;> rfl
@[simp] theorem State.pins_requestBeacon : (s.requestBeacon b).pins = s.pins := by unfold State.requestBeacon; split <;> rfl
@[simp] theorem State.owed_requestBeacon : (s.requestBeacon b).owed = s.owed := by unfold State.requestBeacon; split <;> rfl
@[simp] theorem State.pending_requestBeacon : (s.requestBeacon b).pending = s.pending := by unfold State.requestBeacon; split <;> rfl

end

/-! `refuse` changes only cont, port. -/

section

variable (s : State) (id : ActionId) (reason : Byte)

@[simp] theorem State.member_refuse : (s.refuse id reason).member = s.member := by
  have h := s.member_enqueue (.fresh (.refuse id.origin id.serial reason) false none)
  unfold State.refuse; split <;> (rename_i h'; rw [h'] at h; simpa using h)
@[simp] theorem State.line_refuse : (s.refuse id reason).line = s.line := by
  have h := s.line_enqueue (.fresh (.refuse id.origin id.serial reason) false none)
  unfold State.refuse; split <;> (rename_i h'; rw [h'] at h; simpa using h)
@[simp] theorem State.clock_refuse : (s.refuse id reason).clock = s.clock := by
  have h := s.clock_enqueue (.fresh (.refuse id.origin id.serial reason) false none)
  unfold State.refuse; split <;> (rename_i h'; rw [h'] at h; simpa using h)
@[simp] theorem State.sync_refuse : (s.refuse id reason).sync = s.sync := by
  have h := s.sync_enqueue (.fresh (.refuse id.origin id.serial reason) false none)
  unfold State.refuse; split <;> (rename_i h'; rw [h'] at h; simpa using h)
@[simp] theorem State.sched_refuse : (s.refuse id reason).sched = s.sched := by
  have h := s.sched_enqueue (.fresh (.refuse id.origin id.serial reason) false none)
  unfold State.refuse; split <;> (rename_i h'; rw [h'] at h; simpa using h)
@[simp] theorem State.out_refuse : (s.refuse id reason).out = s.out := by
  have h := s.out_enqueue (.fresh (.refuse id.origin id.serial reason) false none)
  unfold State.refuse; split <;> (rename_i h'; rw [h'] at h; simpa using h)
@[simp] theorem State.exch_refuse : (s.refuse id reason).exch = s.exch := by
  have h := s.exch_enqueue (.fresh (.refuse id.origin id.serial reason) false none)
  unfold State.refuse; split <;> (rename_i h'; rw [h'] at h; simpa using h)
@[simp] theorem State.cap_refuse : (s.refuse id reason).cap = s.cap := by
  have h := s.cap_enqueue (.fresh (.refuse id.origin id.serial reason) false none)
  unfold State.refuse; split <;> (rename_i h'; rw [h'] at h; simpa using h)
@[simp] theorem State.cfg_refuse : (s.refuse id reason).cfg = s.cfg := by
  have h := s.cfg_enqueue (.fresh (.refuse id.origin id.serial reason) false none)
  unfold State.refuse; split <;> (rename_i h'; rw [h'] at h; simpa using h)
@[simp] theorem State.pins_refuse : (s.refuse id reason).pins = s.pins := by
  have h := s.pins_enqueue (.fresh (.refuse id.origin id.serial reason) false none)
  unfold State.refuse; split <;> (rename_i h'; rw [h'] at h; simpa using h)
@[simp] theorem State.owed_refuse : (s.refuse id reason).owed = s.owed := by
  have h := s.owed_enqueue (.fresh (.refuse id.origin id.serial reason) false none)
  unfold State.refuse; split <;> (rename_i h'; rw [h'] at h; simpa using h)
@[simp] theorem State.pending_refuse : (s.refuse id reason).pending = s.pending := by
  have h := s.pending_enqueue (.fresh (.refuse id.origin id.serial reason) false none)
  unfold State.refuse; split <;> (rename_i h'; rw [h'] at h; simpa using h)

end

/-- The three answers to a request (R19, R20). -/
theorem State.enqueue_cases (s : State) (r : TxRecord) :
    (takesKind r.kind s.member.state = false ∧ s.enqueue r = (s, .discarded))
    ∨ (takesKind r.kind s.member.state = true ∧ s.cont.queue.length < 8
      ∧ s.enqueue r = (s.withCont { s.cont with queue := s.cont.queue ++ [r] }, .appended))
    ∨ (takesKind r.kind s.member.state = true ∧ 8 ≤ s.cont.queue.length ∧ s.enqueue r = (s, .full)) := by
  unfold State.enqueue
  split
  · rename_i h; exact .inl ⟨by simpa using h, rfl⟩
  · rename_i h
    split
    · rename_i hr; exact .inr (.inl ⟨by simpa using h, by simpa [Config.transmitPlaces] using hr, rfl⟩)
    · rename_i hr; exact .inr (.inr ⟨by simpa using h, by simpa [Config.transmitPlaces] using hr, rfl⟩)

/-! ### Firings and the action queue (R95–R112) -/

/-! `applyFiring` changes only out. -/

section

variable (s : State) (l : Fin 8) (k : ActionKind) (w : Half) (id : ActionId) (due : Time)

@[simp] theorem State.member_applyFiring : (s.applyFiring l k w id due).member = s.member := rfl
@[simp] theorem State.line_applyFiring : (s.applyFiring l k w id due).line = s.line := rfl
@[simp] theorem State.cont_applyFiring : (s.applyFiring l k w id due).cont = s.cont := rfl
@[simp] theorem State.clock_applyFiring : (s.applyFiring l k w id due).clock = s.clock := rfl
@[simp] theorem State.sync_applyFiring : (s.applyFiring l k w id due).sync = s.sync := rfl
@[simp] theorem State.sched_applyFiring : (s.applyFiring l k w id due).sched = s.sched := rfl
@[simp] theorem State.exch_applyFiring : (s.applyFiring l k w id due).exch = s.exch := rfl
@[simp] theorem State.cap_applyFiring : (s.applyFiring l k w id due).cap = s.cap := rfl
@[simp] theorem State.port_applyFiring : (s.applyFiring l k w id due).port = s.port := rfl
@[simp] theorem State.cfg_applyFiring : (s.applyFiring l k w id due).cfg = s.cfg := rfl
@[simp] theorem State.pins_applyFiring : (s.applyFiring l k w id due).pins = s.pins := rfl
@[simp] theorem State.owed_applyFiring : (s.applyFiring l k w id due).owed = s.owed := rfl
@[simp] theorem State.pending_applyFiring : (s.applyFiring l k w id due).pending = s.pending := rfl

end

/-! `bumpSequence` changes only sched. -/

section

variable (s : State) 

@[simp] theorem State.member_bumpSequence : (s.bumpSequence).member = s.member := rfl
@[simp] theorem State.line_bumpSequence : (s.bumpSequence).line = s.line := rfl
@[simp] theorem State.cont_bumpSequence : (s.bumpSequence).cont = s.cont := rfl
@[simp] theorem State.clock_bumpSequence : (s.bumpSequence).clock = s.clock := rfl
@[simp] theorem State.sync_bumpSequence : (s.bumpSequence).sync = s.sync := rfl
@[simp] theorem State.out_bumpSequence : (s.bumpSequence).out = s.out := rfl
@[simp] theorem State.exch_bumpSequence : (s.bumpSequence).exch = s.exch := rfl
@[simp] theorem State.cap_bumpSequence : (s.bumpSequence).cap = s.cap := rfl
@[simp] theorem State.port_bumpSequence : (s.bumpSequence).port = s.port := rfl
@[simp] theorem State.cfg_bumpSequence : (s.bumpSequence).cfg = s.cfg := rfl
@[simp] theorem State.pins_bumpSequence : (s.bumpSequence).pins = s.pins := rfl
@[simp] theorem State.owed_bumpSequence : (s.bumpSequence).owed = s.owed := rfl
@[simp] theorem State.pending_bumpSequence : (s.bumpSequence).pending = s.pending := rfl

end

/-! `placeEntry` changes only sched. -/

section

variable (s : State) (e : Entry)

@[simp] theorem State.member_placeEntry : (s.placeEntry e).member = s.member := rfl
@[simp] theorem State.line_placeEntry : (s.placeEntry e).line = s.line := rfl
@[simp] theorem State.cont_placeEntry : (s.placeEntry e).cont = s.cont := rfl
@[simp] theorem State.clock_placeEntry : (s.placeEntry e).clock = s.clock := rfl
@[simp] theorem State.sync_placeEntry : (s.placeEntry e).sync = s.sync := rfl
@[simp] theorem State.out_placeEntry : (s.placeEntry e).out = s.out := rfl
@[simp] theorem State.exch_placeEntry : (s.placeEntry e).exch = s.exch := rfl
@[simp] theorem State.cap_placeEntry : (s.placeEntry e).cap = s.cap := rfl
@[simp] theorem State.port_placeEntry : (s.placeEntry e).port = s.port := rfl
@[simp] theorem State.cfg_placeEntry : (s.placeEntry e).cfg = s.cfg := rfl
@[simp] theorem State.pins_placeEntry : (s.placeEntry e).pins = s.pins := rfl
@[simp] theorem State.owed_placeEntry : (s.placeEntry e).owed = s.owed := rfl
@[simp] theorem State.pending_placeEntry : (s.placeEntry e).pending = s.pending := rfl

end

/-! `reinsert` changes only sched. -/

section

variable (s : State) (e : Option Entry)

@[simp] theorem State.member_reinsert : (s.reinsert e).member = s.member := by cases e <;> rfl
@[simp] theorem State.line_reinsert : (s.reinsert e).line = s.line := by cases e <;> rfl
@[simp] theorem State.cont_reinsert : (s.reinsert e).cont = s.cont := by cases e <;> rfl
@[simp] theorem State.clock_reinsert : (s.reinsert e).clock = s.clock := by cases e <;> rfl
@[simp] theorem State.sync_reinsert : (s.reinsert e).sync = s.sync := by cases e <;> rfl
@[simp] theorem State.out_reinsert : (s.reinsert e).out = s.out := by cases e <;> rfl
@[simp] theorem State.exch_reinsert : (s.reinsert e).exch = s.exch := by cases e <;> rfl
@[simp] theorem State.cap_reinsert : (s.reinsert e).cap = s.cap := by cases e <;> rfl
@[simp] theorem State.port_reinsert : (s.reinsert e).port = s.port := by cases e <;> rfl
@[simp] theorem State.cfg_reinsert : (s.reinsert e).cfg = s.cfg := by cases e <;> rfl
@[simp] theorem State.pins_reinsert : (s.reinsert e).pins = s.pins := by cases e <;> rfl
@[simp] theorem State.owed_reinsert : (s.reinsert e).owed = s.owed := by cases e <;> rfl
@[simp] theorem State.pending_reinsert : (s.reinsert e).pending = s.pending := by cases e <;> rfl

end

/-! `fireOnce` changes only out, port. -/

section

variable (s : State) (e : Entry) (l : Option (BitVec 32))

@[simp] theorem State.member_fireOnce : ((s.fireOnce e l).1).member = s.member := by unfold State.fireOnce; cases l <;> (dsimp only; split <;> rfl)
@[simp] theorem State.line_fireOnce : ((s.fireOnce e l).1).line = s.line := by unfold State.fireOnce; cases l <;> (dsimp only; split <;> rfl)
@[simp] theorem State.cont_fireOnce : ((s.fireOnce e l).1).cont = s.cont := by unfold State.fireOnce; cases l <;> (dsimp only; split <;> rfl)
@[simp] theorem State.clock_fireOnce : ((s.fireOnce e l).1).clock = s.clock := by unfold State.fireOnce; cases l <;> (dsimp only; split <;> rfl)
@[simp] theorem State.sync_fireOnce : ((s.fireOnce e l).1).sync = s.sync := by unfold State.fireOnce; cases l <;> (dsimp only; split <;> rfl)
@[simp] theorem State.sched_fireOnce : ((s.fireOnce e l).1).sched = s.sched := by unfold State.fireOnce; cases l <;> (dsimp only; split <;> rfl)
@[simp] theorem State.exch_fireOnce : ((s.fireOnce e l).1).exch = s.exch := by unfold State.fireOnce; cases l <;> (dsimp only; split <;> rfl)
@[simp] theorem State.cap_fireOnce : ((s.fireOnce e l).1).cap = s.cap := by unfold State.fireOnce; cases l <;> (dsimp only; split <;> rfl)
@[simp] theorem State.cfg_fireOnce : ((s.fireOnce e l).1).cfg = s.cfg := by unfold State.fireOnce; cases l <;> (dsimp only; split <;> rfl)
@[simp] theorem State.pins_fireOnce : ((s.fireOnce e l).1).pins = s.pins := by unfold State.fireOnce; cases l <;> (dsimp only; split <;> rfl)
@[simp] theorem State.owed_fireOnce : ((s.fireOnce e l).1).owed = s.owed := by unfold State.fireOnce; cases l <;> (dsimp only; split <;> rfl)
@[simp] theorem State.pending_fireOnce : ((s.fireOnce e l).1).pending = s.pending := by unfold State.fireOnce; cases l <;> (dsimp only; split <;> rfl)

end

/-! `fire` changes only out, port, sched. -/

section

variable (s : State) (e : Entry) (l : Option (BitVec 32))

@[simp] theorem State.member_fire : (s.fire e l).member = s.member := by
  unfold State.fire; split
  · rename_i h; simpa using congrArg (fun x => x.1.member) h.symm
  · rename_i h
    have h1 : _ = s.member := (congrArg (fun x => x.1.member) h.symm).trans (s.member_fireOnce e l)
    simp only at h1
    split <;> simp [h1]
@[simp] theorem State.line_fire : (s.fire e l).line = s.line := by
  unfold State.fire; split
  · rename_i h; simpa using congrArg (fun x => x.1.line) h.symm
  · rename_i h
    have h1 : _ = s.line := (congrArg (fun x => x.1.line) h.symm).trans (s.line_fireOnce e l)
    simp only at h1
    split <;> simp [h1]
@[simp] theorem State.cont_fire : (s.fire e l).cont = s.cont := by
  unfold State.fire; split
  · rename_i h; simpa using congrArg (fun x => x.1.cont) h.symm
  · rename_i h
    have h1 : _ = s.cont := (congrArg (fun x => x.1.cont) h.symm).trans (s.cont_fireOnce e l)
    simp only at h1
    split <;> simp [h1]
@[simp] theorem State.clock_fire : (s.fire e l).clock = s.clock := by
  unfold State.fire; split
  · rename_i h; simpa using congrArg (fun x => x.1.clock) h.symm
  · rename_i h
    have h1 : _ = s.clock := (congrArg (fun x => x.1.clock) h.symm).trans (s.clock_fireOnce e l)
    simp only at h1
    split <;> simp [h1]
@[simp] theorem State.sync_fire : (s.fire e l).sync = s.sync := by
  unfold State.fire; split
  · rename_i h; simpa using congrArg (fun x => x.1.sync) h.symm
  · rename_i h
    have h1 : _ = s.sync := (congrArg (fun x => x.1.sync) h.symm).trans (s.sync_fireOnce e l)
    simp only at h1
    split <;> simp [h1]
@[simp] theorem State.exch_fire : (s.fire e l).exch = s.exch := by
  unfold State.fire; split
  · rename_i h; simpa using congrArg (fun x => x.1.exch) h.symm
  · rename_i h
    have h1 : _ = s.exch := (congrArg (fun x => x.1.exch) h.symm).trans (s.exch_fireOnce e l)
    simp only at h1
    split <;> simp [h1]
@[simp] theorem State.cap_fire : (s.fire e l).cap = s.cap := by
  unfold State.fire; split
  · rename_i h; simpa using congrArg (fun x => x.1.cap) h.symm
  · rename_i h
    have h1 : _ = s.cap := (congrArg (fun x => x.1.cap) h.symm).trans (s.cap_fireOnce e l)
    simp only at h1
    split <;> simp [h1]
@[simp] theorem State.cfg_fire : (s.fire e l).cfg = s.cfg := by
  unfold State.fire; split
  · rename_i h; simpa using congrArg (fun x => x.1.cfg) h.symm
  · rename_i h
    have h1 : _ = s.cfg := (congrArg (fun x => x.1.cfg) h.symm).trans (s.cfg_fireOnce e l)
    simp only at h1
    split <;> simp [h1]
@[simp] theorem State.pins_fire : (s.fire e l).pins = s.pins := by
  unfold State.fire; split
  · rename_i h; simpa using congrArg (fun x => x.1.pins) h.symm
  · rename_i h
    have h1 : _ = s.pins := (congrArg (fun x => x.1.pins) h.symm).trans (s.pins_fireOnce e l)
    simp only at h1
    split <;> simp [h1]
@[simp] theorem State.owed_fire : (s.fire e l).owed = s.owed := by
  unfold State.fire; split
  · rename_i h; simpa using congrArg (fun x => x.1.owed) h.symm
  · rename_i h
    have h1 : _ = s.owed := (congrArg (fun x => x.1.owed) h.symm).trans (s.owed_fireOnce e l)
    simp only at h1
    split <;> simp [h1]
@[simp] theorem State.pending_fire : (s.fire e l).pending = s.pending := by
  unfold State.fire; split
  · rename_i h; simpa using congrArg (fun x => x.1.pending) h.symm
  · rename_i h
    have h1 : _ = s.pending := (congrArg (fun x => x.1.pending) h.symm).trans (s.pending_fireOnce e l)
    simp only at h1
    split <;> simp [h1]

end

/-! `insertByDue` changes only out, port, sched. -/

section

variable (s : State) (e : Entry)

@[simp] theorem State.member_insertByDue : ((s.insertByDue e).1).member = s.member := by
  unfold State.insertByDue; split
  · simp
  · split
    · simp
    · split <;> simp
@[simp] theorem State.line_insertByDue : ((s.insertByDue e).1).line = s.line := by
  unfold State.insertByDue; split
  · simp
  · split
    · simp
    · split <;> simp
@[simp] theorem State.cont_insertByDue : ((s.insertByDue e).1).cont = s.cont := by
  unfold State.insertByDue; split
  · simp
  · split
    · simp
    · split <;> simp
@[simp] theorem State.clock_insertByDue : ((s.insertByDue e).1).clock = s.clock := by
  unfold State.insertByDue; split
  · simp
  · split
    · simp
    · split <;> simp
@[simp] theorem State.sync_insertByDue : ((s.insertByDue e).1).sync = s.sync := by
  unfold State.insertByDue; split
  · simp
  · split
    · simp
    · split <;> simp
@[simp] theorem State.exch_insertByDue : ((s.insertByDue e).1).exch = s.exch := by
  unfold State.insertByDue; split
  · simp
  · split
    · simp
    · split <;> simp
@[simp] theorem State.cap_insertByDue : ((s.insertByDue e).1).cap = s.cap := by
  unfold State.insertByDue; split
  · simp
  · split
    · simp
    · split <;> simp
@[simp] theorem State.cfg_insertByDue : ((s.insertByDue e).1).cfg = s.cfg := by
  unfold State.insertByDue; split
  · simp
  · split
    · simp
    · split <;> simp
@[simp] theorem State.pins_insertByDue : ((s.insertByDue e).1).pins = s.pins := by
  unfold State.insertByDue; split
  · simp
  · split
    · simp
    · split <;> simp
@[simp] theorem State.owed_insertByDue : ((s.insertByDue e).1).owed = s.owed := by
  unfold State.insertByDue; split
  · simp
  · split
    · simp
    · split <;> simp
@[simp] theorem State.pending_insertByDue : ((s.insertByDue e).1).pending = s.pending := by
  unfold State.insertByDue; split
  · simp
  · split
    · simp
    · split <;> simp

end

/-! `insert` changes only out, port, sched. -/

section

variable (s : State) (e : Entry)

@[simp] theorem State.member_insert : ((s.insert e).1).member = s.member := by
  unfold State.insert
  repeat (first | rfl | simp | split)
@[simp] theorem State.line_insert : ((s.insert e).1).line = s.line := by
  unfold State.insert
  repeat (first | rfl | simp | split)
@[simp] theorem State.cont_insert : ((s.insert e).1).cont = s.cont := by
  unfold State.insert
  repeat (first | rfl | simp | split)
@[simp] theorem State.clock_insert : ((s.insert e).1).clock = s.clock := by
  unfold State.insert
  repeat (first | rfl | simp | split)
@[simp] theorem State.sync_insert : ((s.insert e).1).sync = s.sync := by
  unfold State.insert
  repeat (first | rfl | simp | split)
@[simp] theorem State.exch_insert : ((s.insert e).1).exch = s.exch := by
  unfold State.insert
  repeat (first | rfl | simp | split)
@[simp] theorem State.cap_insert : ((s.insert e).1).cap = s.cap := by
  unfold State.insert
  repeat (first | rfl | simp | split)
@[simp] theorem State.cfg_insert : ((s.insert e).1).cfg = s.cfg := by
  unfold State.insert
  repeat (first | rfl | simp | split)
@[simp] theorem State.pins_insert : ((s.insert e).1).pins = s.pins := by
  unfold State.insert
  repeat (first | rfl | simp | split)
@[simp] theorem State.owed_insert : ((s.insert e).1).owed = s.owed := by
  unfold State.insert
  repeat (first | rfl | simp | split)
@[simp] theorem State.pending_insert : ((s.insert e).1).pending = s.pending := by
  unfold State.insert
  repeat (first | rfl | simp | split)

end

/-! `amendEntry` changes only sched. -/

section

variable (s : State) (id : ActionId) (new : Repeat)

@[simp] theorem State.member_amendEntry : ((s.amendEntry id new).1).member = s.member := by
  unfold State.amendEntry
  repeat (first | rfl | split)
@[simp] theorem State.line_amendEntry : ((s.amendEntry id new).1).line = s.line := by
  unfold State.amendEntry
  repeat (first | rfl | split)
@[simp] theorem State.cont_amendEntry : ((s.amendEntry id new).1).cont = s.cont := by
  unfold State.amendEntry
  repeat (first | rfl | split)
@[simp] theorem State.clock_amendEntry : ((s.amendEntry id new).1).clock = s.clock := by
  unfold State.amendEntry
  repeat (first | rfl | split)
@[simp] theorem State.sync_amendEntry : ((s.amendEntry id new).1).sync = s.sync := by
  unfold State.amendEntry
  repeat (first | rfl | split)
@[simp] theorem State.out_amendEntry : ((s.amendEntry id new).1).out = s.out := by
  unfold State.amendEntry
  repeat (first | rfl | split)
@[simp] theorem State.exch_amendEntry : ((s.amendEntry id new).1).exch = s.exch := by
  unfold State.amendEntry
  repeat (first | rfl | split)
@[simp] theorem State.cap_amendEntry : ((s.amendEntry id new).1).cap = s.cap := by
  unfold State.amendEntry
  repeat (first | rfl | split)
@[simp] theorem State.port_amendEntry : ((s.amendEntry id new).1).port = s.port := by
  unfold State.amendEntry
  repeat (first | rfl | split)
@[simp] theorem State.cfg_amendEntry : ((s.amendEntry id new).1).cfg = s.cfg := by
  unfold State.amendEntry
  repeat (first | rfl | split)
@[simp] theorem State.pins_amendEntry : ((s.amendEntry id new).1).pins = s.pins := by
  unfold State.amendEntry
  repeat (first | rfl | split)
@[simp] theorem State.owed_amendEntry : ((s.amendEntry id new).1).owed = s.owed := by
  unfold State.amendEntry
  repeat (first | rfl | split)
@[simp] theorem State.pending_amendEntry : ((s.amendEntry id new).1).pending = s.pending := by
  unfold State.amendEntry
  repeat (first | rfl | split)

end

/-! `cancelEntry` changes only sched. -/

section

variable (s : State) (id : ActionId)

@[simp] theorem State.member_cancelEntry : ((s.cancelEntry id).1).member = s.member := by
  unfold State.cancelEntry
  repeat (first | rfl | split)
@[simp] theorem State.line_cancelEntry : ((s.cancelEntry id).1).line = s.line := by
  unfold State.cancelEntry
  repeat (first | rfl | split)
@[simp] theorem State.cont_cancelEntry : ((s.cancelEntry id).1).cont = s.cont := by
  unfold State.cancelEntry
  repeat (first | rfl | split)
@[simp] theorem State.clock_cancelEntry : ((s.cancelEntry id).1).clock = s.clock := by
  unfold State.cancelEntry
  repeat (first | rfl | split)
@[simp] theorem State.sync_cancelEntry : ((s.cancelEntry id).1).sync = s.sync := by
  unfold State.cancelEntry
  repeat (first | rfl | split)
@[simp] theorem State.out_cancelEntry : ((s.cancelEntry id).1).out = s.out := by
  unfold State.cancelEntry
  repeat (first | rfl | split)
@[simp] theorem State.exch_cancelEntry : ((s.cancelEntry id).1).exch = s.exch := by
  unfold State.cancelEntry
  repeat (first | rfl | split)
@[simp] theorem State.cap_cancelEntry : ((s.cancelEntry id).1).cap = s.cap := by
  unfold State.cancelEntry
  repeat (first | rfl | split)
@[simp] theorem State.port_cancelEntry : ((s.cancelEntry id).1).port = s.port := by
  unfold State.cancelEntry
  repeat (first | rfl | split)
@[simp] theorem State.cfg_cancelEntry : ((s.cancelEntry id).1).cfg = s.cfg := by
  unfold State.cancelEntry
  repeat (first | rfl | split)
@[simp] theorem State.pins_cancelEntry : ((s.cancelEntry id).1).pins = s.pins := by
  unfold State.cancelEntry
  repeat (first | rfl | split)
@[simp] theorem State.owed_cancelEntry : ((s.cancelEntry id).1).owed = s.owed := by
  unfold State.cancelEntry
  repeat (first | rfl | split)
@[simp] theorem State.pending_cancelEntry : ((s.cancelEntry id).1).pending = s.pending := by
  unfold State.cancelEntry
  repeat (first | rfl | split)

end

/-! `flush` changes only sched, port. -/

section

variable (s : State) (c : Cause)

@[simp] theorem State.member_flush : (s.flush c).member = s.member := by unfold State.flush; dsimp only; split <;> simp
@[simp] theorem State.line_flush : (s.flush c).line = s.line := by unfold State.flush; dsimp only; split <;> simp
@[simp] theorem State.cont_flush : (s.flush c).cont = s.cont := by unfold State.flush; dsimp only; split <;> simp
@[simp] theorem State.clock_flush : (s.flush c).clock = s.clock := by unfold State.flush; dsimp only; split <;> simp
@[simp] theorem State.sync_flush : (s.flush c).sync = s.sync := by unfold State.flush; dsimp only; split <;> simp
@[simp] theorem State.out_flush : (s.flush c).out = s.out := by unfold State.flush; dsimp only; split <;> simp
@[simp] theorem State.exch_flush : (s.flush c).exch = s.exch := by unfold State.flush; dsimp only; split <;> simp
@[simp] theorem State.cap_flush : (s.flush c).cap = s.cap := by unfold State.flush; dsimp only; split <;> simp
@[simp] theorem State.cfg_flush : (s.flush c).cfg = s.cfg := by unfold State.flush; dsimp only; split <;> simp
@[simp] theorem State.pins_flush : (s.flush c).pins = s.pins := by unfold State.flush; dsimp only; split <;> simp
@[simp] theorem State.owed_flush : (s.flush c).owed = s.owed := by unfold State.flush; dsimp only; split <;> simp
@[simp] theorem State.pending_flush : (s.flush c).pending = s.pending := by unfold State.flush; dsimp only; split <;> simp

end

/-! `applyClaim` changes only out, port, sched. -/

section

variable (s : State) (o : Station) (src : Source) (p : Payload)

@[simp] theorem State.member_applyClaim : ((s.applyClaim o src p).1).member = s.member := by
  cases p <;> simp [State.applyClaim]
@[simp] theorem State.line_applyClaim : ((s.applyClaim o src p).1).line = s.line := by
  cases p <;> simp [State.applyClaim]
@[simp] theorem State.cont_applyClaim : ((s.applyClaim o src p).1).cont = s.cont := by
  cases p <;> simp [State.applyClaim]
@[simp] theorem State.clock_applyClaim : ((s.applyClaim o src p).1).clock = s.clock := by
  cases p <;> simp [State.applyClaim]
@[simp] theorem State.sync_applyClaim : ((s.applyClaim o src p).1).sync = s.sync := by
  cases p <;> simp [State.applyClaim]
@[simp] theorem State.exch_applyClaim : ((s.applyClaim o src p).1).exch = s.exch := by
  cases p <;> simp [State.applyClaim]
@[simp] theorem State.cap_applyClaim : ((s.applyClaim o src p).1).cap = s.cap := by
  cases p <;> simp [State.applyClaim]
@[simp] theorem State.cfg_applyClaim : ((s.applyClaim o src p).1).cfg = s.cfg := by
  cases p <;> simp [State.applyClaim]
@[simp] theorem State.pins_applyClaim : ((s.applyClaim o src p).1).pins = s.pins := by
  cases p <;> simp [State.applyClaim]
@[simp] theorem State.owed_applyClaim : ((s.applyClaim o src p).1).owed = s.owed := by
  cases p <;> simp [State.applyClaim]
@[simp] theorem State.pending_applyClaim : ((s.applyClaim o src p).1).pending = s.pending := by
  cases p <;> simp [State.applyClaim]

end

@[simp] theorem State.orderBase_withSched (s : State) (x : Scheduler) : (s.withSched x).orderBase = s.orderBase := rfl
@[simp] theorem State.orderBase_withOut (s : State) (x : OutputUnit) : (s.withOut x).orderBase = s.orderBase := rfl
@[simp] theorem State.orderBase_withPort (s : State) (x : ServicePort) : (s.withPort x).orderBase = s.orderBase := rfl

/-- A placement puts the entry, with the next sequence, into the queue and moves the counter (R95). -/
theorem State.placeEntry_eq (s : State) (e : Entry) :
    s.placeEntry e = s.withSched
      { queue := placeIn s.orderBase { e with sequence := s.sched.counter + 1 } s.sched.queue,
        counter := s.sched.counter + 1 } := rfl

/-- A placement adds the entry and moves no other. -/
theorem placeIn_perm (base : Time) (e : Entry) (queue : List Entry) : (placeIn base e queue).Perm (e :: queue) := by
  induction queue with
  | nil => exact .refl _
  | cons x rest ih =>
    unfold placeIn
    split
    · exact (ih.cons x).trans (.swap e x rest)
    · exact .refl _

/-- A placement keeps the order of due times (R95). -/
theorem placeIn_sorted {base : Time} (e : Entry) {queue : List Entry}
    (sorted : queue.Pairwise fun a b => dueKey base a.due ≤ dueKey base b.due) :
    (placeIn base e queue).Pairwise fun a b => dueKey base a.due ≤ dueKey base b.due := by
  induction queue with
  | nil => simp [placeIn]
  | cons x rest ih =>
    rw [List.pairwise_cons] at sorted
    unfold placeIn
    split
    · rename_i hx
      rw [List.pairwise_cons]
      refine ⟨fun y hy => ?_, ih sorted.2⟩
      rcases List.mem_cons.1 ((placeIn_perm base e rest).mem_iff.1 hy) with rfl | hy
      · exact hx
      · exact sorted.1 y hy
    · rename_i hx
      rw [List.pairwise_cons]
      refine ⟨fun y hy => ?_, List.pairwise_cons.2 sorted⟩
      rcases List.mem_cons.1 hy with rfl | hy
      · omega
      · have := sorted.1 y hy; omega

/-- The outcomes of an insertion, in the order of the checks (R96–R102). -/
theorem State.insert_cases (s : State) (e : Entry) :
    (s.member.state ≠ .member ∧ s.insert e = (s, .notMember))
    ∨ (s.member.state = .member ∧ s.enabled e.line = false ∧ s.insert e = (s, .badLine))
    ∨ (s.member.state = .member ∧ s.enabled e.line = true ∧ fieldsOk e = false ∧ s.insert e = (s, .badField))
    ∨ (s.member.state = .member ∧ s.enabled e.line = true ∧ fieldsOk e = true ∧ (∃ x ∈ s.sched.queue, x.id = e.id)
      ∧ s.insert e = (s.withSched { s.sched with queue := s.sched.queue.filter (fun x => x.id ≠ e.id) }).insertByDue e)
    ∨ (s.member.state = .member ∧ s.enabled e.line = true ∧ fieldsOk e = true ∧ (∀ x ∈ s.sched.queue, x.id ≠ e.id)
      ∧ 32 ≤ s.sched.queue.length ∧ s.insert e = (s, .queueFull))
    ∨ (s.member.state = .member ∧ s.enabled e.line = true ∧ fieldsOk e = true ∧ (∀ x ∈ s.sched.queue, x.id ≠ e.id)
      ∧ s.sched.queue.length < 32 ∧ s.insert e = s.insertByDue e) := by
  unfold State.insert
  by_cases hm : s.member.state = .member <;> simp only [hm, ne_eq, not_true_eq_false, not_false_eq_true, if_true, if_false,
    true_and, false_and, false_or, or_false]
  cases hl : s.enabled e.line <;> simp only [Bool.not_false, Bool.not_true, if_true, Bool.false_eq_true, if_false, true_and,
    false_and, or_false, false_or, reduceCtorEq]
  cases hf : fieldsOk e <;> simp only [Bool.not_false, Bool.not_true, if_true, Bool.false_eq_true, if_false, true_and,
    false_and, or_false, false_or, reduceCtorEq]
  by_cases hi : ∃ x ∈ s.sched.queue, x.id = e.id
  · left; exact ⟨hi, by rw [if_pos (by simpa using hi)]⟩
  · right
    have hn : ∀ x ∈ s.sched.queue, x.id ≠ e.id := fun x hx h => hi ⟨x, hx, h⟩
    rw [if_neg (by simpa using hi)]
    by_cases hc : 32 ≤ s.sched.queue.length
    · exact .inl ⟨hn, hc, by rw [if_pos (by simpa [Config.actionPlaces] using hc)]⟩
    · exact .inr ⟨hn, by omega, by rw [if_neg (by simpa [Config.actionPlaces] using hc)]⟩

/-- The outcomes of the lateness check (R100–R102). -/
theorem State.insertByDue_cases (s : State) (e : Entry) :
    (isAfter e.due s.now = true ∧ s.insertByDue e = (s.placeEntry e, .inserted))
    ∨ (e.due = s.now ∧ s.insertByDue e = (s.fire e none, .inserted))
    ∨ (isAfter e.due s.now = false ∧ e.due ≠ s.now ∧ s.config.latePolicy = .drop
      ∧ s.insertByDue e = (s.report (.dropped e.id (s.now - e.due)), .late))
    ∨ (isAfter e.due s.now = false ∧ e.due ≠ s.now ∧ s.config.latePolicy = .fire
      ∧ s.insertByDue e = (s.fire e (some (s.now - e.due)), .inserted)) := by
  unfold State.insertByDue
  cases ha : isAfter e.due s.now
  · by_cases hd : e.due = s.now
    · simp [hd]
    · cases hp : s.config.latePolicy <;> simp [hd]
  · simp

/-- The state that the lateness check leaves: placed, fired, or only reported (R100–R102). -/
theorem State.insertByDue_state (s : State) (e : Entry) :
    (s.insertByDue e).1 = s.placeEntry e ∨ (∃ l, (s.insertByDue e).1 = s.fire e l) ∨ ∃ d, (s.insertByDue e).1 = s.report d := by
  obtain h | h | h | h := s.insertByDue_cases e <;> simp [h]

/-- The state that an insertion leaves: unchanged by a refusal of an early check, otherwise what the lateness check makes of the
queue, from which a replaced entry has gone (R96–R102). -/
theorem State.insert_state (s : State) (e : Entry) :
    (s.insert e).1 = s ∨ ∃ q, (s.insert e).1 = ((s.withSched q).insertByDue e).1 := by
  unfold State.insert
  repeat' split
  all_goals first | exact .inl rfl | exact .inr ⟨_, rfl⟩

/-! ### State changes -/

/-! `changeState` changes only member, port. -/

section

variable (s : State) (new : StationState) (c : Cause)

@[simp] theorem State.line_changeState : (s.changeState new c).line = s.line := rfl
@[simp] theorem State.cont_changeState : (s.changeState new c).cont = s.cont := rfl
@[simp] theorem State.clock_changeState : (s.changeState new c).clock = s.clock := rfl
@[simp] theorem State.sync_changeState : (s.changeState new c).sync = s.sync := rfl
@[simp] theorem State.sched_changeState : (s.changeState new c).sched = s.sched := rfl
@[simp] theorem State.out_changeState : (s.changeState new c).out = s.out := rfl
@[simp] theorem State.exch_changeState : (s.changeState new c).exch = s.exch := rfl
@[simp] theorem State.cap_changeState : (s.changeState new c).cap = s.cap := rfl
@[simp] theorem State.cfg_changeState : (s.changeState new c).cfg = s.cfg := rfl
@[simp] theorem State.pins_changeState : (s.changeState new c).pins = s.pins := rfl
@[simp] theorem State.owed_changeState : (s.changeState new c).owed = s.owed := rfl
@[simp] theorem State.pending_changeState : (s.changeState new c).pending = s.pending := rfl

end

/-! `tellWaiting` changes only port, owed. -/

section

variable (s : State)

/-- Nothing is put off unless a verdict is handed over with the line unit's turn last, and an error is counted. -/
@[simp] theorem State.putOffErrors_eq_nil_iff :
    s.putOffErrors = [] ↔ ∀ h, s.owed.verdict = some h → h.turn = .last → s.line.errors = 0 := by
  unfold State.putOffErrors
  rcases s.owed.verdict with _ | ⟨v, t⟩
  · simp
  · cases t <;> simp

theorem State.putOffErrors_of_no_verdict (h : s.owed.verdict = none) : s.putOffErrors = [] := by simp [h]

@[simp] theorem State.member_tellWaiting : s.tellWaiting.member = s.member := by simp [State.tellWaiting]
@[simp] theorem State.line_tellWaiting : s.tellWaiting.line = s.line := by simp [State.tellWaiting]
@[simp] theorem State.cont_tellWaiting : s.tellWaiting.cont = s.cont := by simp [State.tellWaiting]
@[simp] theorem State.clock_tellWaiting : s.tellWaiting.clock = s.clock := by simp [State.tellWaiting]
@[simp] theorem State.sync_tellWaiting : s.tellWaiting.sync = s.sync := by simp [State.tellWaiting]
@[simp] theorem State.sched_tellWaiting : s.tellWaiting.sched = s.sched := by simp [State.tellWaiting]
@[simp] theorem State.out_tellWaiting : s.tellWaiting.out = s.out := by simp [State.tellWaiting]
@[simp] theorem State.exch_tellWaiting : s.tellWaiting.exch = s.exch := by simp [State.tellWaiting]
@[simp] theorem State.cap_tellWaiting : s.tellWaiting.cap = s.cap := by simp [State.tellWaiting]
@[simp] theorem State.cfg_tellWaiting : s.tellWaiting.cfg = s.cfg := by simp [State.tellWaiting]
@[simp] theorem State.pins_tellWaiting : s.tellWaiting.pins = s.pins := by simp [State.tellWaiting]
@[simp] theorem State.pending_tellWaiting : s.tellWaiting.pending = s.pending := by simp [State.tellWaiting]
@[simp] theorem State.owed_tellWaiting : s.tellWaiting.owed
    = { s.owed with insertions := s.owed.insertions.map fun h => { h with behind := [] } } := by simp [State.tellWaiting]
@[simp] theorem State.reports_tellWaiting :
    s.tellWaiting.port.reports = (s.putOffErrors ++ s.waitingReports).foldl arrive s.port.reports := by
  simp [State.tellWaiting]

end

/-! `teardownToListen` changes only member, line, cont, clock, sync, sched, out, cap, port, owed. -/

section

variable (s : State) (c : Cause)

@[simp] theorem State.exch_teardownToListen : (s.teardownToListen c).exch = s.exch := by
  unfold State.teardownToListen State.leaveForListen; dsimp only; rw [State.exch_flush]; exact State.exch_tellWaiting s
@[simp] theorem State.cfg_teardownToListen : (s.teardownToListen c).cfg = s.cfg := by
  unfold State.teardownToListen State.leaveForListen; dsimp only; rw [State.cfg_flush]; exact State.cfg_tellWaiting s
@[simp] theorem State.pins_teardownToListen : (s.teardownToListen c).pins = s.pins := by
  unfold State.teardownToListen State.leaveForListen; dsimp only; rw [State.pins_flush]; exact State.pins_tellWaiting s
@[simp] theorem State.pending_teardownToListen : (s.teardownToListen c).pending = s.pending := by
  unfold State.teardownToListen State.leaveForListen; dsimp only; rw [State.pending_flush]; exact State.pending_tellWaiting s

end

/-! `teardownToStopped` changes only member, line, cont, clock, sync, sched, out, cap, port, owed. -/

section

variable (s : State) (c : Cause)

@[simp] theorem State.exch_teardownToStopped : (s.teardownToStopped c).exch = s.exch := by
  unfold State.teardownToStopped State.leaveForStopped; dsimp only; rw [State.exch_flush]; exact State.exch_tellWaiting s
@[simp] theorem State.cfg_teardownToStopped : (s.teardownToStopped c).cfg = s.cfg := by
  unfold State.teardownToStopped State.leaveForStopped; dsimp only; rw [State.cfg_flush]; exact State.cfg_tellWaiting s
@[simp] theorem State.pins_teardownToStopped : (s.teardownToStopped c).pins = s.pins := by
  unfold State.teardownToStopped State.leaveForStopped; dsimp only; rw [State.pins_flush]; exact State.pins_tellWaiting s
@[simp] theorem State.pending_teardownToStopped : (s.teardownToStopped c).pending = s.pending := by
  unfold State.teardownToStopped State.leaveForStopped; dsimp only; rw [State.pending_flush]; exact State.pending_tellWaiting s

end

/-! `enterStopped` changes only member, line, cont, clock, sync, sched, out, cap, port, owed. -/

section

variable (s : State) (c : Cause)

@[simp] theorem State.exch_enterStopped : (s.enterStopped c).exch = s.exch := by unfold State.enterStopped; split <;> first | rfl | simp
@[simp] theorem State.cfg_enterStopped : (s.enterStopped c).cfg = s.cfg := by unfold State.enterStopped; split <;> first | rfl | simp
@[simp] theorem State.pins_enterStopped : (s.enterStopped c).pins = s.pins := by unfold State.enterStopped; split <;> first | rfl | simp
@[simp] theorem State.pending_enterStopped : (s.enterStopped c).pending = s.pending := by unfold State.enterStopped; split <;> first | rfl | simp

end

@[simp] theorem State.member_changeState (s : State) (new : StationState) (c : Cause) :
    (s.changeState new c).member = { s.member with state := new, cause := some c } := rfl

@[simp] theorem State.reports_changeState (s : State) (new : StationState) (c : Cause) :
    (s.changeState new c).port.reports = arrive s.port.reports
      { detail := .state s.member.state new c, stamp := s.stampTime, unsynced := s.unsynced } := rfl

end Sys2Proof.Machine
end

