-- ==== Sys2Proof/Laws/Sched.lean ====
section
/-! SUPPORT. The sequence order of the action queue (R95): what a placement, a removal and a move of the counter make of it. -/

namespace Sys2Proof.Machine

/-- In a queue in due order a placement puts the entry behind all of its due time, so that a relation between entries of one due
time that holds in the queue, and of each of them with the new entry, holds after it. -/
theorem placeIn_sameDue {base : Time} {e : Entry} {queue : List Entry} {P : Entry → Entry → Prop}
    (sorted : queue.Pairwise fun a b => dueKey base a.due ≤ dueKey base b.due)
    (kept : queue.Pairwise fun a b => a.due = b.due → P a b) (new : ∀ x ∈ queue, x.due = e.due → P x e) :
    (placeIn base e queue).Pairwise fun a b => a.due = b.due → P a b := by
  induction queue with
  | nil => simp [placeIn]
  | cons x rest ih =>
    rw [List.pairwise_cons] at sorted kept
    unfold placeIn
    split
    · rw [List.pairwise_cons]
      refine ⟨fun y hy => ?_, ih sorted.2 kept.2 fun y hy => new y (List.mem_cons_of_mem x hy)⟩
      rcases List.mem_cons.1 ((placeIn_perm base e rest).mem_iff.1 hy) with rfl | hy
      · exact new x List.mem_cons_self
      · exact kept.1 y hy
    · rename_i later
      refine List.pairwise_cons.2 ⟨fun y hy same => ?_, List.pairwise_cons.2 kept⟩
      have : dueKey base x.due ≤ dueKey base y.due := by
        rcases List.mem_cons.1 hy with rfl | hy
        · exact le_refl _
        · exact sorted.1 y hy
      rw [← same] at this
      exact absurd this later

/-- One step of the counter moves the age of an entry by 1, unless it wraps. -/
theorem age_succ (counter sequence : BitVec 32) (h : (counter - sequence).toNat + 1 < 2 ^ 32) :
    (counter + 1 - sequence).toNat = (counter - sequence).toNat + 1 := by
  have : counter + 1 - sequence = (counter - sequence) + 1 := by ring
  rw [this, BitVec.toNat_add]
  exact Nat.mod_eq_of_lt h

namespace State

variable {s : State} {room : Nat}

/-- Less room is asked of fewer placements. -/
theorem SequencesOk.mono {less : Nat} (h : less ≤ room) (ok : s.SequencesOk room) : s.SequencesOk less :=
  ⟨ok.1, fun e he => lt_of_le_of_lt (by omega) (ok.2 e he)⟩

/-- Entries that leave the queue disturb no order. -/
theorem SequencesOk.sublist {queue : List Entry} (h : queue.Sublist s.sched.queue) (ok : s.SequencesOk room) :
    (s.withSched { s.sched with queue := queue }).SequencesOk room :=
  ⟨ok.1.sublist h, fun e he => ok.2 e (h.subset he)⟩

/-- A step of the counter uses one place of the room. -/
theorem SequencesOk.bumpSequence (ok : s.SequencesOk (room + 1)) : s.bumpSequence.SequencesOk room := by
  have older : ∀ x ∈ s.sched.queue, (s.sched.counter + 1 - x.sequence).toNat = (s.sched.counter - x.sequence).toNat + 1 :=
    fun x hx => age_succ _ _ (by have := ok.2 x hx; omega)
  refine ⟨ok.1.imp_of_mem fun {a b} ha hb h same => ?_, fun x hx => ?_⟩
  · show (s.sched.counter + 1 - b.sequence).toNat < (s.sched.counter + 1 - a.sequence).toNat
    have := h same
    rw [older a ha, older b hb]
    omega
  · show (s.sched.counter + 1 - x.sequence).toNat + room < 2 ^ 32
    have := ok.2 x hx
    rw [older x hx]
    omega

/-- A placement in a queue in due order uses one place of the room. -/
theorem SequencesOk.placeEntry (e : Entry) (sorted : inDueOrder s.orderBase s.sched.queue) (roomy : room < 2 ^ 32)
    (ok : s.SequencesOk (room + 1)) : (s.placeEntry e).SequencesOk room := by
  have later := SequencesOk.bumpSequence ok
  refine ⟨placeIn_sameDue sorted later.1 fun x hx _ => ?_, fun x hx => ?_⟩
  · show (s.sched.counter + 1 - (s.sched.counter + 1)).toNat < (s.sched.counter + 1 - x.sequence).toNat
    rw [age_succ s.sched.counter x.sequence (by have := ok.2 x hx; omega), BitVec.sub_self]
    exact Nat.succ_pos _
  · rcases List.mem_cons.1 ((placeIn_perm _ _ _).mem_iff.1 hx) with rfl | hx
    · show (s.sched.counter + 1 - (s.sched.counter + 1)).toNat + room < 2 ^ 32
      simpa using roomy
    · exact later.2 x hx

end State

end Sys2Proof.Machine
end

