-- ==== Sys2Proof/Laws/Time.lean ====
section
/-! SUPPORT. What the shared operations leave of the service port (its transaction, response, work and held block), and the frames
of the events of time: the stages of a round boundary, the firing of the due entries, the reflexes of an edge. -/

namespace Sys2Proof.Machine

/-! `queueReport` at the service port. -/

section

variable (s : State) (r : Report)

@[simp] theorem State.transaction_queueReport : (s.queueReport r).port.transaction = s.port.transaction := rfl
@[simp] theorem State.response_queueReport : (s.queueReport r).port.response = s.port.response := rfl
@[simp] theorem State.work_queueReport : (s.queueReport r).port.work = s.port.work := rfl
@[simp] theorem State.block_queueReport : (s.queueReport r).port.block = s.port.block := rfl

end

/-! `report` at the service port. -/

section

variable (s : State) (d : ReportDetail)

@[simp] theorem State.transaction_report : (s.report d).port.transaction = s.port.transaction := rfl
@[simp] theorem State.response_report : (s.report d).port.response = s.port.response := rfl
@[simp] theorem State.work_report : (s.report d).port.work = s.port.work := rfl
@[simp] theorem State.block_report : (s.report d).port.block = s.port.block := rfl

end

/-! `queueReports` at the service port. -/

section

variable (s : State) (l : List Report)

@[simp] theorem State.transaction_queueReports : (s.queueReports l).port.transaction = s.port.transaction := by
  induction l generalizing s with
  | nil => rfl
  | cons r rest ih => exact (ih (s.queueReport r)).trans (State.transaction_queueReport s r)
@[simp] theorem State.response_queueReports : (s.queueReports l).port.response = s.port.response := by
  induction l generalizing s with
  | nil => rfl
  | cons r rest ih => exact (ih (s.queueReport r)).trans (State.response_queueReport s r)
@[simp] theorem State.work_queueReports : (s.queueReports l).port.work = s.port.work := by
  induction l generalizing s with
  | nil => rfl
  | cons r rest ih => exact (ih (s.queueReport r)).trans (State.work_queueReport s r)
@[simp] theorem State.block_queueReports : (s.queueReports l).port.block = s.port.block := by
  induction l generalizing s with
  | nil => rfl
  | cons r rest ih => exact (ih (s.queueReport r)).trans (State.block_queueReport s r)

end

/-! `tellWaiting` at the service port. -/

section

variable (s : State) 

@[simp] theorem State.transaction_tellWaiting : (s.tellWaiting).port.transaction = s.port.transaction := by simp [State.tellWaiting]
@[simp] theorem State.response_tellWaiting : (s.tellWaiting).port.response = s.port.response := by simp [State.tellWaiting]
@[simp] theorem State.work_tellWaiting : (s.tellWaiting).port.work = s.port.work := by simp [State.tellWaiting]
@[simp] theorem State.block_tellWaiting : (s.tellWaiting).port.block = s.port.block := by simp [State.tellWaiting]

end

/-! `changeState` at the service port. -/

section

variable (s : State) (new : StationState) (c : Cause)

@[simp] theorem State.transaction_changeState : (s.changeState new c).port.transaction = s.port.transaction := rfl
@[simp] theorem State.response_changeState : (s.changeState new c).port.response = s.port.response := rfl
@[simp] theorem State.work_changeState : (s.changeState new c).port.work = s.port.work := rfl
@[simp] theorem State.block_changeState : (s.changeState new c).port.block = s.port.block := rfl

end

/-! `logLoss` at the service port. -/

section

variable (s : State) (d : Option Half)

@[simp] theorem State.transaction_logLoss : (s.logLoss d).port.transaction = s.port.transaction := by unfold State.logLoss; split <;> rfl
@[simp] theorem State.response_logLoss : (s.logLoss d).port.response = s.port.response := by unfold State.logLoss; split <;> rfl
@[simp] theorem State.work_logLoss : (s.logLoss d).port.work = s.port.work := by unfold State.logLoss; split <;> rfl
@[simp] theorem State.block_logLoss : (s.logLoss d).port.block = s.port.block := by unfold State.logLoss; split <;> rfl

end

/-! `appendLog` at the service port. -/

section

variable (s : State) (kept : List LogRecord) (body : LogBody)

@[simp] theorem State.transaction_appendLog : (s.appendLog kept body).port.transaction = s.port.transaction := rfl
@[simp] theorem State.response_appendLog : (s.appendLog kept body).port.response = s.port.response := rfl
@[simp] theorem State.work_appendLog : (s.appendLog kept body).port.work = s.port.work := rfl
@[simp] theorem State.block_appendLog : (s.appendLog kept body).port.block = s.port.block := rfl

end

/-! `enterLog` at the service port. -/

section

variable (s : State) (body : LogBody)

@[simp] theorem State.transaction_enterLog : ((s.enterLog body).1).port.transaction = s.port.transaction := by
  unfold State.enterLog; split
  · simp
  · split <;> simp
@[simp] theorem State.response_enterLog : ((s.enterLog body).1).port.response = s.port.response := by
  unfold State.enterLog; split
  · simp
  · split <;> simp
@[simp] theorem State.work_enterLog : ((s.enterLog body).1).port.work = s.port.work := by
  unfold State.enterLog; split
  · simp
  · split <;> simp
@[simp] theorem State.block_enterLog : ((s.enterLog body).1).port.block = s.port.block := by
  unfold State.enterLog; split
  · simp
  · split <;> simp

end

/-! `refuse` at the service port. -/

section

variable (s : State) (id : ActionId) (reason : Byte)

@[simp] theorem State.transaction_refuse : (s.refuse id reason).port.transaction = s.port.transaction := by
  have h := s.port_enqueue (.fresh (.refuse id.origin id.serial reason) false none)
  unfold State.refuse; split <;> (rename_i h'; rw [h'] at h; simpa using congrArg (·.transaction) h)
@[simp] theorem State.response_refuse : (s.refuse id reason).port.response = s.port.response := by
  have h := s.port_enqueue (.fresh (.refuse id.origin id.serial reason) false none)
  unfold State.refuse; split <;> (rename_i h'; rw [h'] at h; simpa using congrArg (·.response) h)
@[simp] theorem State.work_refuse : (s.refuse id reason).port.work = s.port.work := by
  have h := s.port_enqueue (.fresh (.refuse id.origin id.serial reason) false none)
  unfold State.refuse; split <;> (rename_i h'; rw [h'] at h; simpa using congrArg (·.work) h)
@[simp] theorem State.block_refuse : (s.refuse id reason).port.block = s.port.block := by
  have h := s.port_enqueue (.fresh (.refuse id.origin id.serial reason) false none)
  unfold State.refuse; split <;> (rename_i h'; rw [h'] at h; simpa using congrArg (·.block) h)

end

/-! `flush` at the service port. -/

section

variable (s : State) (c : Cause)

@[simp] theorem State.transaction_flush : (s.flush c).port.transaction = s.port.transaction := by unfold State.flush; dsimp only; split <;> simp
@[simp] theorem State.response_flush : (s.flush c).port.response = s.port.response := by unfold State.flush; dsimp only; split <;> simp
@[simp] theorem State.work_flush : (s.flush c).port.work = s.port.work := by unfold State.flush; dsimp only; split <;> simp
@[simp] theorem State.block_flush : (s.flush c).port.block = s.port.block := by unfold State.flush; dsimp only; split <;> simp

end

/-! `fireOnce` at the service port. -/

section

variable (s : State) (e : Entry) (l : Option (BitVec 32))

@[simp] theorem State.transaction_fireOnce : ((s.fireOnce e l).1).port.transaction = s.port.transaction := by unfold State.fireOnce; cases l <;> (dsimp only; split <;> rfl)
@[simp] theorem State.response_fireOnce : ((s.fireOnce e l).1).port.response = s.port.response := by unfold State.fireOnce; cases l <;> (dsimp only; split <;> rfl)
@[simp] theorem State.work_fireOnce : ((s.fireOnce e l).1).port.work = s.port.work := by unfold State.fireOnce; cases l <;> (dsimp only; split <;> rfl)
@[simp] theorem State.block_fireOnce : ((s.fireOnce e l).1).port.block = s.port.block := by unfold State.fireOnce; cases l <;> (dsimp only; split <;> rfl)

end

/-! `reinsert` at the service port. -/

section

variable (s : State) (e : Option Entry)

@[simp] theorem State.transaction_reinsert : (s.reinsert e).port.transaction = s.port.transaction := by cases e <;> rfl
@[simp] theorem State.response_reinsert : (s.reinsert e).port.response = s.port.response := by cases e <;> rfl
@[simp] theorem State.work_reinsert : (s.reinsert e).port.work = s.port.work := by cases e <;> rfl
@[simp] theorem State.block_reinsert : (s.reinsert e).port.block = s.port.block := by cases e <;> rfl

end

/-! `fire` at the service port. -/

section

variable (s : State) (e : Entry) (l : Option (BitVec 32))

@[simp] theorem State.transaction_fire : (s.fire e l).port.transaction = s.port.transaction := by
  have h := s.transaction_fireOnce e l
  unfold State.fire; split
  · rename_i h'; rw [h'] at h; exact h
  · rename_i h'; rw [h'] at h; dsimp only at h; split <;> simp [h]
@[simp] theorem State.response_fire : (s.fire e l).port.response = s.port.response := by
  have h := s.response_fireOnce e l
  unfold State.fire; split
  · rename_i h'; rw [h'] at h; exact h
  · rename_i h'; rw [h'] at h; dsimp only at h; split <;> simp [h]
@[simp] theorem State.work_fire : (s.fire e l).port.work = s.port.work := by
  have h := s.work_fireOnce e l
  unfold State.fire; split
  · rename_i h'; rw [h'] at h; exact h
  · rename_i h'; rw [h'] at h; dsimp only at h; split <;> simp [h]
@[simp] theorem State.block_fire : (s.fire e l).port.block = s.port.block := by
  have h := s.block_fireOnce e l
  unfold State.fire; split
  · rename_i h'; rw [h'] at h; exact h
  · rename_i h'; rw [h'] at h; dsimp only at h; split <;> simp [h]

end

/-! `insertByDue` at the service port. -/

section

variable (s : State) (e : Entry)

@[simp] theorem State.transaction_insertByDue : ((s.insertByDue e).1).port.transaction = s.port.transaction := by
  rcases s.insertByDue_state e with h | ⟨l, h⟩ | ⟨d, h⟩ <;> simp [h]
@[simp] theorem State.response_insertByDue : ((s.insertByDue e).1).port.response = s.port.response := by
  rcases s.insertByDue_state e with h | ⟨l, h⟩ | ⟨d, h⟩ <;> simp [h]
@[simp] theorem State.work_insertByDue : ((s.insertByDue e).1).port.work = s.port.work := by
  rcases s.insertByDue_state e with h | ⟨l, h⟩ | ⟨d, h⟩ <;> simp [h]
@[simp] theorem State.block_insertByDue : ((s.insertByDue e).1).port.block = s.port.block := by
  rcases s.insertByDue_state e with h | ⟨l, h⟩ | ⟨d, h⟩ <;> simp [h]

end

/-! `insert` at the service port. -/

section

variable (s : State) (e : Entry)

@[simp] theorem State.transaction_insert : ((s.insert e).1).port.transaction = s.port.transaction := by
  rcases s.insert_state e with h | ⟨q, h⟩ <;> simp [h]
@[simp] theorem State.response_insert : ((s.insert e).1).port.response = s.port.response := by
  rcases s.insert_state e with h | ⟨q, h⟩ <;> simp [h]
@[simp] theorem State.work_insert : ((s.insert e).1).port.work = s.port.work := by
  rcases s.insert_state e with h | ⟨q, h⟩ <;> simp [h]
@[simp] theorem State.block_insert : ((s.insert e).1).port.block = s.port.block := by
  rcases s.insert_state e with h | ⟨q, h⟩ <;> simp [h]

end

/-! `teardownToListen` at the service port. -/

section

variable (s : State) (c : Cause)

@[simp] theorem State.transaction_teardownToListen : (s.teardownToListen c).port.transaction = s.port.transaction := by
  unfold State.teardownToListen State.leaveForListen; dsimp only; rw [State.transaction_flush]; exact State.transaction_tellWaiting s
@[simp] theorem State.response_teardownToListen : (s.teardownToListen c).port.response = s.port.response := by
  unfold State.teardownToListen State.leaveForListen; dsimp only; rw [State.response_flush]; exact State.response_tellWaiting s
@[simp] theorem State.work_teardownToListen : (s.teardownToListen c).port.work = s.port.work := by
  unfold State.teardownToListen State.leaveForListen; dsimp only; rw [State.work_flush]; exact State.work_tellWaiting s
@[simp] theorem State.block_teardownToListen : (s.teardownToListen c).port.block = s.port.block := by
  unfold State.teardownToListen State.leaveForListen; dsimp only; rw [State.block_flush]; exact State.block_tellWaiting s

end

/-! `teardownToStopped` at the service port. -/

section

variable (s : State) (c : Cause)

@[simp] theorem State.transaction_teardownToStopped : (s.teardownToStopped c).port.transaction = s.port.transaction := by
  unfold State.teardownToStopped State.leaveForStopped; dsimp only; rw [State.transaction_flush]; exact State.transaction_tellWaiting s
@[simp] theorem State.response_teardownToStopped : (s.teardownToStopped c).port.response = s.port.response := by
  unfold State.teardownToStopped State.leaveForStopped; dsimp only; rw [State.response_flush]; exact State.response_tellWaiting s
@[simp] theorem State.work_teardownToStopped : (s.teardownToStopped c).port.work = s.port.work := by
  unfold State.teardownToStopped State.leaveForStopped; dsimp only; rw [State.work_flush]; exact State.work_tellWaiting s
@[simp] theorem State.block_teardownToStopped : (s.teardownToStopped c).port.block = s.port.block := by
  unfold State.teardownToStopped State.leaveForStopped; dsimp only; rw [State.block_flush]; exact State.block_tellWaiting s

end

/-! `enterStopped` at the service port. -/

section

variable (s : State) (c : Cause)

@[simp] theorem State.transaction_enterStopped : (s.enterStopped c).port.transaction = s.port.transaction := by unfold State.enterStopped; split <;> first | rfl | simp
@[simp] theorem State.response_enterStopped : (s.enterStopped c).port.response = s.port.response := by unfold State.enterStopped; split <;> first | rfl | simp
@[simp] theorem State.work_enterStopped : (s.enterStopped c).port.work = s.port.work := by unfold State.enterStopped; split <;> first | rfl | simp
@[simp] theorem State.block_enterStopped : (s.enterStopped c).port.block = s.port.block := by unfold State.enterStopped; split <;> first | rfl | simp

end

/-- What a flush leaves of the report queue (R116). -/
theorem State.reports_flush (s : State) (c : Cause) :
    (s.flush c).port.reports = if s.sched.queue = [] then s.port.reports
      else arrive s.port.reports { detail := .flushed s.sched.queue.length c, stamp := s.stampTime, unsynced := s.unsynced } := by
  unfold State.flush; dsimp only
  by_cases h : s.sched.queue = []
  · simp [h]
  · rw [if_neg (by simpa using h), if_neg h]; rfl

@[simp] theorem State.sched_flush (s : State) (c : Cause) : (s.flush c).sched = { s.sched with queue := [] } := by
  unfold State.flush; dsimp only; split <;> rfl

/-- What a teardown into LISTEN leaves of each block, when no report waits (R91). -/
theorem State.leaveForListen_blocks (s : State) (c : Cause) :
    (s.leaveForListen c).member = { s.member with state := .listen, alone := true, cause := some c }
    ∧ (s.leaveForListen c).clock = { ticks := s.clock.ticks, cluster := none, slew := 0, spacing := 0, listen := some 0 }
    ∧ (s.leaveForListen c).line = { s.line with errors := 0 }
    ∧ (s.leaveForListen c).cont = s.cont.purged
    ∧ (s.leaveForListen c).sync = s.sync.left
    ∧ (s.leaveForListen c).sched = { s.sched with queue := [] }
    ∧ (s.leaveForListen c).out = s.resyncLines.out
    ∧ (s.leaveForListen c).cap = { s.cap with filters := some (baseline s.pins) }
    ∧ (s.leaveForListen c).owed = { s.owed with boundary := false, fireFrom := none }
    ∧ (s.leaveForListen c).port.reports =
        (let queue := arrive s.port.reports
          { detail := .state s.member.state .listen c, stamp := s.clock.ticks, unsynced := true }
         if s.sched.queue = [] then queue
         else arrive queue { detail := .flushed s.sched.queue.length c, stamp := s.clock.ticks, unsynced := true }) := by
  unfold State.leaveForListen
  dsimp only
  simp only [State.member_flush, State.clock_flush, State.line_flush, State.cont_flush, State.sync_flush, State.sched_flush,
    State.out_flush, State.cap_flush, State.owed_flush, State.reports_flush]
  exact ⟨rfl, rfl, rfl, rfl, rfl, rfl, rfl, rfl, rfl, rfl⟩

/-- What a teardown into LISTEN leaves of each block (R91). -/
theorem State.teardownToListen_blocks (s : State) (c : Cause) :
    (s.teardownToListen c).member = { s.member with state := .listen, alone := true, cause := some c }
    ∧ (s.teardownToListen c).clock = { ticks := s.clock.ticks, cluster := none, slew := 0, spacing := 0, listen := some 0 }
    ∧ (s.teardownToListen c).line = { s.line with errors := 0 }
    ∧ (s.teardownToListen c).cont = s.cont.purged
    ∧ (s.teardownToListen c).sync = s.sync.left
    ∧ (s.teardownToListen c).sched = { s.sched with queue := [] }
    ∧ (s.teardownToListen c).out = s.resyncLines.out
    ∧ (s.teardownToListen c).cap = { s.cap with filters := some (baseline s.pins) }
    ∧ (s.teardownToListen c).owed = { s.owed with
        boundary := false, fireFrom := none, insertions := s.owed.insertions.map fun h => { h with behind := [] } }
    ∧ (s.teardownToListen c).port.reports =
        (let queue := arrive ((s.putOffErrors ++ s.waitingReports).foldl arrive s.port.reports)
          { detail := .state s.member.state .listen c, stamp := s.clock.ticks, unsynced := true }
         if s.sched.queue = [] then queue
         else arrive queue { detail := .flushed s.sched.queue.length c, stamp := s.clock.ticks, unsynced := true }) := by
  have h := s.tellWaiting.leaveForListen_blocks c
  simpa [State.teardownToListen, State.resyncLines, State.defaultHigh, State.config] using h

/-- What a teardown into STOPPED leaves of each block, when no report waits (R91). -/
theorem State.leaveForStopped_blocks (s : State) (c : Cause) :
    (s.leaveForStopped c).member = { s.member with state := .stopped, alone := true, cause := some c }
    ∧ (s.leaveForStopped c).clock = { ticks := s.clock.ticks, cluster := none, slew := 0, spacing := 0, listen := none }
    ∧ (s.leaveForStopped c).line = s.line.stopped
    ∧ (s.leaveForStopped c).cont = s.cont.purged.silent
    ∧ (s.leaveForStopped c).sync = s.sync.left
    ∧ (s.leaveForStopped c).sched = { s.sched with queue := [] }
    ∧ (s.leaveForStopped c).out = s.defaultLines.out
    ∧ (s.leaveForStopped c).cap = { s.cap with filters := none }
    ∧ (s.leaveForStopped c).owed = { s.owed with boundary := false, fireFrom := none }
    ∧ (s.leaveForStopped c).port.reports =
        (let queue := arrive s.port.reports
          { detail := .state s.member.state .stopped c, stamp := s.clock.ticks, unsynced := true }
         if s.sched.queue = [] then queue
         else arrive queue { detail := .flushed s.sched.queue.length c, stamp := s.clock.ticks, unsynced := true }) := by
  unfold State.leaveForStopped
  dsimp only
  simp only [State.member_flush, State.clock_flush, State.line_flush, State.cont_flush, State.sync_flush, State.sched_flush,
    State.out_flush, State.cap_flush, State.owed_flush, State.reports_flush]
  exact ⟨rfl, rfl, rfl, rfl, rfl, rfl, rfl, rfl, rfl, rfl⟩

/-- What a teardown into STOPPED leaves of each block (R91). -/
theorem State.teardownToStopped_blocks (s : State) (c : Cause) :
    (s.teardownToStopped c).member = { s.member with state := .stopped, alone := true, cause := some c }
    ∧ (s.teardownToStopped c).clock = { ticks := s.clock.ticks, cluster := none, slew := 0, spacing := 0, listen := none }
    ∧ (s.teardownToStopped c).line = s.line.stopped
    ∧ (s.teardownToStopped c).cont = s.cont.purged.silent
    ∧ (s.teardownToStopped c).sync = s.sync.left
    ∧ (s.teardownToStopped c).sched = { s.sched with queue := [] }
    ∧ (s.teardownToStopped c).out = s.defaultLines.out
    ∧ (s.teardownToStopped c).cap = { s.cap with filters := none }
    ∧ (s.teardownToStopped c).owed = { s.owed with
        boundary := false, fireFrom := none, insertions := s.owed.insertions.map fun h => { h with behind := [] } }
    ∧ (s.teardownToStopped c).port.reports =
        (let queue := arrive ((s.putOffErrors ++ s.waitingReports).foldl arrive s.port.reports)
          { detail := .state s.member.state .stopped c, stamp := s.clock.ticks, unsynced := true }
         if s.sched.queue = [] then queue
         else arrive queue { detail := .flushed s.sched.queue.length c, stamp := s.clock.ticks, unsynced := true }) := by
  have h := s.tellWaiting.leaveForStopped_blocks c
  simpa [State.teardownToStopped, State.defaultLines, State.defaultHigh, State.config] using h

/-! ### The stages of a round boundary (R10, R57–R66) -/

/-! `reportPeers` changes only port. -/

section

variable (s : State) (before after : Vector PeerRecord 16)

@[simp] theorem State.member_reportPeers : (s.reportPeers before after).member = s.member := by
  unfold State.reportPeers
  induction List.finRange 16 generalizing s with
  | nil => rfl
  | cons i rest ih => rw [List.foldl_cons, ih]; split <;> simp
@[simp] theorem State.line_reportPeers : (s.reportPeers before after).line = s.line := by
  unfold State.reportPeers
  induction List.finRange 16 generalizing s with
  | nil => rfl
  | cons i rest ih => rw [List.foldl_cons, ih]; split <;> simp
@[simp] theorem State.cont_reportPeers : (s.reportPeers before after).cont = s.cont := by
  unfold State.reportPeers
  induction List.finRange 16 generalizing s with
  | nil => rfl
  | cons i rest ih => rw [List.foldl_cons, ih]; split <;> simp
@[simp] theorem State.clock_reportPeers : (s.reportPeers before after).clock = s.clock := by
  unfold State.reportPeers
  induction List.finRange 16 generalizing s with
  | nil => rfl
  | cons i rest ih => rw [List.foldl_cons, ih]; split <;> simp
@[simp] theorem State.sync_reportPeers : (s.reportPeers before after).sync = s.sync := by
  unfold State.reportPeers
  induction List.finRange 16 generalizing s with
  | nil => rfl
  | cons i rest ih => rw [List.foldl_cons, ih]; split <;> simp
@[simp] theorem State.sched_reportPeers : (s.reportPeers before after).sched = s.sched := by
  unfold State.reportPeers
  induction List.finRange 16 generalizing s with
  | nil => rfl
  | cons i rest ih => rw [List.foldl_cons, ih]; split <;> simp
@[simp] theorem State.out_reportPeers : (s.reportPeers before after).out = s.out := by
  unfold State.reportPeers
  induction List.finRange 16 generalizing s with
  | nil => rfl
  | cons i rest ih => rw [List.foldl_cons, ih]; split <;> simp
@[simp] theorem State.exch_reportPeers : (s.reportPeers before after).exch = s.exch := by
  unfold State.reportPeers
  induction List.finRange 16 generalizing s with
  | nil => rfl
  | cons i rest ih => rw [List.foldl_cons, ih]; split <;> simp
@[simp] theorem State.cap_reportPeers : (s.reportPeers before after).cap = s.cap := by
  unfold State.reportPeers
  induction List.finRange 16 generalizing s with
  | nil => rfl
  | cons i rest ih => rw [List.foldl_cons, ih]; split <;> simp
@[simp] theorem State.cfg_reportPeers : (s.reportPeers before after).cfg = s.cfg := by
  unfold State.reportPeers
  induction List.finRange 16 generalizing s with
  | nil => rfl
  | cons i rest ih => rw [List.foldl_cons, ih]; split <;> simp
@[simp] theorem State.pins_reportPeers : (s.reportPeers before after).pins = s.pins := by
  unfold State.reportPeers
  induction List.finRange 16 generalizing s with
  | nil => rfl
  | cons i rest ih => rw [List.foldl_cons, ih]; split <;> simp
@[simp] theorem State.owed_reportPeers : (s.reportPeers before after).owed = s.owed := by
  unfold State.reportPeers
  induction List.finRange 16 generalizing s with
  | nil => rfl
  | cons i rest ih => rw [List.foldl_cons, ih]; split <;> simp
@[simp] theorem State.pending_reportPeers : (s.reportPeers before after).pending = s.pending := by
  unfold State.reportPeers
  induction List.finRange 16 generalizing s with
  | nil => rfl
  | cons i rest ih => rw [List.foldl_cons, ih]; split <;> simp

end

/-! `reportPeers` at the service port. -/

section

variable (s : State) (before after : Vector PeerRecord 16)

@[simp] theorem State.transaction_reportPeers : (s.reportPeers before after).port.transaction = s.port.transaction := by
  unfold State.reportPeers
  induction List.finRange 16 generalizing s with
  | nil => rfl
  | cons i rest ih => rw [List.foldl_cons, ih]; split <;> simp
@[simp] theorem State.response_reportPeers : (s.reportPeers before after).port.response = s.port.response := by
  unfold State.reportPeers
  induction List.finRange 16 generalizing s with
  | nil => rfl
  | cons i rest ih => rw [List.foldl_cons, ih]; split <;> simp
@[simp] theorem State.work_reportPeers : (s.reportPeers before after).port.work = s.port.work := by
  unfold State.reportPeers
  induction List.finRange 16 generalizing s with
  | nil => rfl
  | cons i rest ih => rw [List.foldl_cons, ih]; split <;> simp
@[simp] theorem State.block_reportPeers : (s.reportPeers before after).port.block = s.port.block := by
  unfold State.reportPeers
  induction List.finRange 16 generalizing s with
  | nil => rfl
  | cons i rest ih => rw [List.foldl_cons, ih]; split <;> simp

end

/-! `setAlone` changes only member, port. -/

section

variable (s : State) (a : Bool)

@[simp] theorem State.line_setAlone : (s.setAlone a).line = s.line := by unfold State.setAlone; dsimp only; split <;> simp
@[simp] theorem State.cont_setAlone : (s.setAlone a).cont = s.cont := by unfold State.setAlone; dsimp only; split <;> simp
@[simp] theorem State.clock_setAlone : (s.setAlone a).clock = s.clock := by unfold State.setAlone; dsimp only; split <;> simp
@[simp] theorem State.sync_setAlone : (s.setAlone a).sync = s.sync := by unfold State.setAlone; dsimp only; split <;> simp
@[simp] theorem State.sched_setAlone : (s.setAlone a).sched = s.sched := by unfold State.setAlone; dsimp only; split <;> simp
@[simp] theorem State.out_setAlone : (s.setAlone a).out = s.out := by unfold State.setAlone; dsimp only; split <;> simp
@[simp] theorem State.exch_setAlone : (s.setAlone a).exch = s.exch := by unfold State.setAlone; dsimp only; split <;> simp
@[simp] theorem State.cap_setAlone : (s.setAlone a).cap = s.cap := by unfold State.setAlone; dsimp only; split <;> simp
@[simp] theorem State.cfg_setAlone : (s.setAlone a).cfg = s.cfg := by unfold State.setAlone; dsimp only; split <;> simp
@[simp] theorem State.pins_setAlone : (s.setAlone a).pins = s.pins := by unfold State.setAlone; dsimp only; split <;> simp
@[simp] theorem State.owed_setAlone : (s.setAlone a).owed = s.owed := by unfold State.setAlone; dsimp only; split <;> simp
@[simp] theorem State.pending_setAlone : (s.setAlone a).pending = s.pending := by unfold State.setAlone; dsimp only; split <;> simp

end

/-! `setAlone` at the service port. -/

section

variable (s : State) (a : Bool)

@[simp] theorem State.transaction_setAlone : (s.setAlone a).port.transaction = s.port.transaction := by unfold State.setAlone; dsimp only; split <;> simp
@[simp] theorem State.response_setAlone : (s.setAlone a).port.response = s.port.response := by unfold State.setAlone; dsimp only; split <;> simp
@[simp] theorem State.work_setAlone : (s.setAlone a).port.work = s.port.work := by unfold State.setAlone; dsimp only; split <;> simp
@[simp] theorem State.block_setAlone : (s.setAlone a).port.block = s.port.block := by unfold State.setAlone; dsimp only; split <;> simp

end

@[simp] theorem State.member_setAlone (s : State) (a : Bool) : (s.setAlone a).member = { s.member with alone := a } := by
  unfold State.setAlone; dsimp only; split <;> rfl

/-! `evaluate` changes only member, port, sync. -/

section

variable (s : State) 

@[simp] theorem State.line_evaluate : (s.evaluate).line = s.line := by unfold State.evaluate; simp
@[simp] theorem State.cont_evaluate : (s.evaluate).cont = s.cont := by unfold State.evaluate; simp
@[simp] theorem State.clock_evaluate : (s.evaluate).clock = s.clock := by unfold State.evaluate; simp
@[simp] theorem State.sched_evaluate : (s.evaluate).sched = s.sched := by unfold State.evaluate; simp
@[simp] theorem State.out_evaluate : (s.evaluate).out = s.out := by unfold State.evaluate; simp
@[simp] theorem State.exch_evaluate : (s.evaluate).exch = s.exch := by unfold State.evaluate; simp
@[simp] theorem State.cap_evaluate : (s.evaluate).cap = s.cap := by unfold State.evaluate; simp
@[simp] theorem State.cfg_evaluate : (s.evaluate).cfg = s.cfg := by unfold State.evaluate; simp
@[simp] theorem State.pins_evaluate : (s.evaluate).pins = s.pins := by unfold State.evaluate; simp
@[simp] theorem State.owed_evaluate : (s.evaluate).owed = s.owed := by unfold State.evaluate; simp
@[simp] theorem State.pending_evaluate : (s.evaluate).pending = s.pending := by unfold State.evaluate; simp

end

/-! `evaluate` at the service port. -/

section

variable (s : State) 

@[simp] theorem State.transaction_evaluate : (s.evaluate).port.transaction = s.port.transaction := by unfold State.evaluate; simp
@[simp] theorem State.response_evaluate : (s.evaluate).port.response = s.port.response := by unfold State.evaluate; simp
@[simp] theorem State.work_evaluate : (s.evaluate).port.work = s.port.work := by unfold State.evaluate; simp
@[simp] theorem State.block_evaluate : (s.evaluate).port.block = s.port.block := by unfold State.evaluate; simp

end

/-- The peer table and the counts that an evaluation leaves (R59, R62, R64). -/
@[simp] theorem State.sync_evaluate (s : State) :
    s.evaluate.sync = { peers := s.evaluatedPeers, splitCount := s.evaluatedCounts.1, joinRounds := s.evaluatedCounts.2.1,
                        noFresh := s.evaluatedCounts.2.2 } := by
  unfold State.evaluate; simp

/-- The alone flag that an evaluation leaves (R61). -/
@[simp] theorem State.member_evaluate (s : State) :
    s.evaluate.member = { s.member with alone := s.evaluatedPeers.toList.all fun r => r.state ≠ .synced } := by
  unfold State.evaluate; simp [State.noneSynced]

/-! `lineErrors` changes only port. -/

section

variable (s : State) (now turn : LineTurn) (errors : Nat) (stamp : Time)

@[simp] theorem State.member_lineErrors : (s.lineErrors now turn errors stamp).member = s.member := by unfold State.lineErrors; split <;> rfl
@[simp] theorem State.line_lineErrors : (s.lineErrors now turn errors stamp).line = s.line := by unfold State.lineErrors; split <;> rfl
@[simp] theorem State.cont_lineErrors : (s.lineErrors now turn errors stamp).cont = s.cont := by unfold State.lineErrors; split <;> rfl
@[simp] theorem State.clock_lineErrors : (s.lineErrors now turn errors stamp).clock = s.clock := by unfold State.lineErrors; split <;> rfl
@[simp] theorem State.sync_lineErrors : (s.lineErrors now turn errors stamp).sync = s.sync := by unfold State.lineErrors; split <;> rfl
@[simp] theorem State.sched_lineErrors : (s.lineErrors now turn errors stamp).sched = s.sched := by unfold State.lineErrors; split <;> rfl
@[simp] theorem State.out_lineErrors : (s.lineErrors now turn errors stamp).out = s.out := by unfold State.lineErrors; split <;> rfl
@[simp] theorem State.exch_lineErrors : (s.lineErrors now turn errors stamp).exch = s.exch := by unfold State.lineErrors; split <;> rfl
@[simp] theorem State.cap_lineErrors : (s.lineErrors now turn errors stamp).cap = s.cap := by unfold State.lineErrors; split <;> rfl
@[simp] theorem State.cfg_lineErrors : (s.lineErrors now turn errors stamp).cfg = s.cfg := by unfold State.lineErrors; split <;> rfl
@[simp] theorem State.pins_lineErrors : (s.lineErrors now turn errors stamp).pins = s.pins := by unfold State.lineErrors; split <;> rfl
@[simp] theorem State.owed_lineErrors : (s.lineErrors now turn errors stamp).owed = s.owed := by unfold State.lineErrors; split <;> rfl
@[simp] theorem State.pending_lineErrors : (s.lineErrors now turn errors stamp).pending = s.pending := by unfold State.lineErrors; split <;> rfl

end

/-! `lineErrors` at the service port. -/

section

variable (s : State) (now turn : LineTurn) (errors : Nat) (stamp : Time)

@[simp] theorem State.transaction_lineErrors : (s.lineErrors now turn errors stamp).port.transaction = s.port.transaction := by unfold State.lineErrors; split <;> rfl
@[simp] theorem State.response_lineErrors : (s.lineErrors now turn errors stamp).port.response = s.port.response := by unfold State.lineErrors; split <;> rfl
@[simp] theorem State.work_lineErrors : (s.lineErrors now turn errors stamp).port.work = s.port.work := by unfold State.lineErrors; split <;> rfl
@[simp] theorem State.block_lineErrors : (s.lineErrors now turn errors stamp).port.block = s.port.block := by unfold State.lineErrors; split <;> rfl

end

/-! `setCorrection` changes only clock. -/

section

variable (s : State) (c : Int)

@[simp] theorem State.member_setCorrection : (s.setCorrection c).member = s.member := by unfold State.setCorrection; split <;> rfl
@[simp] theorem State.line_setCorrection : (s.setCorrection c).line = s.line := by unfold State.setCorrection; split <;> rfl
@[simp] theorem State.cont_setCorrection : (s.setCorrection c).cont = s.cont := by unfold State.setCorrection; split <;> rfl
@[simp] theorem State.sync_setCorrection : (s.setCorrection c).sync = s.sync := by unfold State.setCorrection; split <;> rfl
@[simp] theorem State.sched_setCorrection : (s.setCorrection c).sched = s.sched := by unfold State.setCorrection; split <;> rfl
@[simp] theorem State.out_setCorrection : (s.setCorrection c).out = s.out := by unfold State.setCorrection; split <;> rfl
@[simp] theorem State.exch_setCorrection : (s.setCorrection c).exch = s.exch := by unfold State.setCorrection; split <;> rfl
@[simp] theorem State.cap_setCorrection : (s.setCorrection c).cap = s.cap := by unfold State.setCorrection; split <;> rfl
@[simp] theorem State.port_setCorrection : (s.setCorrection c).port = s.port := by unfold State.setCorrection; split <;> rfl
@[simp] theorem State.cfg_setCorrection : (s.setCorrection c).cfg = s.cfg := by unfold State.setCorrection; split <;> rfl
@[simp] theorem State.pins_setCorrection : (s.setCorrection c).pins = s.pins := by unfold State.setCorrection; split <;> rfl
@[simp] theorem State.owed_setCorrection : (s.setCorrection c).owed = s.owed := by unfold State.setCorrection; split <;> rfl
@[simp] theorem State.pending_setCorrection : (s.setCorrection c).pending = s.pending := by unfold State.setCorrection; split <;> rfl

end

/-- What an evaluation computes depends on the peer table, the counts, the station state and the configuration only. -/
theorem State.verdict_congr {s t : State} (sync : t.sync = s.sync) (member : t.member = s.member) (cfg : t.cfg = s.cfg) :
    t.verdict = s.verdict ∧ t.evaluatedRaw = s.evaluatedRaw ∧ t.evaluatedPeers = s.evaluatedPeers
    ∧ t.evaluatedCounts = s.evaluatedCounts := by
  cases s; cases t; subst sync member cfg
  exact ⟨rfl, rfl, rfl, rfl⟩

/-! `beginBoundary` changes only line, owed. -/

section

variable (s : State) (turn : LineTurn)

@[simp] theorem State.member_beginBoundary : (s.beginBoundary turn).member = s.member := rfl
@[simp] theorem State.cont_beginBoundary : (s.beginBoundary turn).cont = s.cont := rfl
@[simp] theorem State.clock_beginBoundary : (s.beginBoundary turn).clock = s.clock := rfl
@[simp] theorem State.sync_beginBoundary : (s.beginBoundary turn).sync = s.sync := rfl
@[simp] theorem State.sched_beginBoundary : (s.beginBoundary turn).sched = s.sched := rfl
@[simp] theorem State.out_beginBoundary : (s.beginBoundary turn).out = s.out := rfl
@[simp] theorem State.exch_beginBoundary : (s.beginBoundary turn).exch = s.exch := rfl
@[simp] theorem State.cap_beginBoundary : (s.beginBoundary turn).cap = s.cap := rfl
@[simp] theorem State.port_beginBoundary : (s.beginBoundary turn).port = s.port := rfl
@[simp] theorem State.cfg_beginBoundary : (s.beginBoundary turn).cfg = s.cfg := rfl
@[simp] theorem State.pins_beginBoundary : (s.beginBoundary turn).pins = s.pins := rfl
@[simp] theorem State.pending_beginBoundary : (s.beginBoundary turn).pending = s.pending := rfl

end

@[simp] theorem State.line_beginBoundary (s : State) (turn : LineTurn) : (s.beginBoundary turn).line
    = { s.line with errors := if turn = .last then s.line.errors else 0 } := rfl
@[simp] theorem State.owed_beginBoundary (s : State) (turn : LineTurn) : (s.beginBoundary turn).owed
    = { s.owed with boundary := false, verdict := some { verdict := s.verdict, turn := turn } } := rfl

/-! What the evaluation of a boundary leaves of each block, before the membership controller takes its verdict. -/

section

variable (s : State) (turn : LineTurn)

@[simp] theorem State.member_evaluation : (s.evaluation turn).member
    = { s.member with alone := s.evaluatedPeers.toList.all fun r => r.state ≠ .synced } := by
  have h := (s.verdict_congr (t := (s.beginBoundary turn).lineErrors .first turn s.line.errors s.now) (by simp) (by simp) (by simp)).2.2.1
  simp [State.evaluation, h]
@[simp] theorem State.sync_evaluation : (s.evaluation turn).sync
    = { peers := s.evaluatedPeers, splitCount := s.evaluatedCounts.1, joinRounds := s.evaluatedCounts.2.1,
        noFresh := s.evaluatedCounts.2.2 } := by
  have h := (s.verdict_congr (t := (s.beginBoundary turn).lineErrors .first turn s.line.errors s.now) (by simp) (by simp) (by simp)).2.2
  simp [State.evaluation, h.1, h.2]
theorem State.clock_evaluation (valid : s.valid = true) : (s.evaluation turn).clock
    = { s.clock with slew := appliedCorrection s.config.maxStep.toNat s.evaluatedRaw, spacing := 0 } := by
  simp [State.evaluation, State.setCorrection, State.valid] at valid ⊢; simp [valid]
@[simp] theorem State.cluster_evaluation : (s.evaluation turn).clock.cluster = s.clock.cluster := by
  simp [State.evaluation, State.setCorrection]; split <;> simp
@[simp] theorem State.ticks_evaluation : (s.evaluation turn).clock.ticks = s.clock.ticks := by
  simp [State.evaluation, State.setCorrection]; split <;> simp
@[simp] theorem State.listen_evaluation : (s.evaluation turn).clock.listen = s.clock.listen := by
  simp [State.evaluation, State.setCorrection]; split <;> simp
@[simp] theorem State.line_evaluation : (s.evaluation turn).line
    = { s.line with errors := if turn = .last then s.line.errors else 0 } := by simp [State.evaluation]
@[simp] theorem State.owed_evaluation : (s.evaluation turn).owed = { s.owed with
    boundary := false, verdict := some { verdict := s.verdict, turn := turn } } := by simp [State.evaluation]

@[simp] theorem State.sched_evaluation : (s.evaluation turn).sched = s.sched := by simp [State.evaluation]
@[simp] theorem State.out_evaluation : (s.evaluation turn).out = s.out := by simp [State.evaluation]
@[simp] theorem State.exch_evaluation : (s.evaluation turn).exch = s.exch := by simp [State.evaluation]
@[simp] theorem State.cap_evaluation : (s.evaluation turn).cap = s.cap := by simp [State.evaluation]
@[simp] theorem State.cfg_evaluation : (s.evaluation turn).cfg = s.cfg := by simp [State.evaluation]
@[simp] theorem State.pins_evaluation : (s.evaluation turn).pins = s.pins := by simp [State.evaluation]
@[simp] theorem State.pending_evaluation : (s.evaluation turn).pending = s.pending := by simp [State.evaluation]
@[simp] theorem State.transaction_evaluation : (s.evaluation turn).port.transaction = s.port.transaction := by simp [State.evaluation]
@[simp] theorem State.response_evaluation : (s.evaluation turn).port.response = s.port.response := by simp [State.evaluation]
@[simp] theorem State.work_evaluation : (s.evaluation turn).port.work = s.port.work := by simp [State.evaluation]
@[simp] theorem State.block_evaluation : (s.evaluation turn).port.block = s.port.block := by simp [State.evaluation]

end

/-! `dropVerdict` changes only line, owed. -/

section

variable (s : State) (turn : LineTurn)

@[simp] theorem State.member_dropVerdict : (s.dropVerdict turn).member = s.member := rfl
@[simp] theorem State.cont_dropVerdict : (s.dropVerdict turn).cont = s.cont := rfl
@[simp] theorem State.clock_dropVerdict : (s.dropVerdict turn).clock = s.clock := rfl
@[simp] theorem State.sync_dropVerdict : (s.dropVerdict turn).sync = s.sync := rfl
@[simp] theorem State.sched_dropVerdict : (s.dropVerdict turn).sched = s.sched := rfl
@[simp] theorem State.out_dropVerdict : (s.dropVerdict turn).out = s.out := rfl
@[simp] theorem State.exch_dropVerdict : (s.dropVerdict turn).exch = s.exch := rfl
@[simp] theorem State.cap_dropVerdict : (s.dropVerdict turn).cap = s.cap := rfl
@[simp] theorem State.port_dropVerdict : (s.dropVerdict turn).port = s.port := rfl
@[simp] theorem State.cfg_dropVerdict : (s.dropVerdict turn).cfg = s.cfg := rfl
@[simp] theorem State.pins_dropVerdict : (s.dropVerdict turn).pins = s.pins := rfl
@[simp] theorem State.pending_dropVerdict : (s.dropVerdict turn).pending = s.pending := rfl

end

@[simp] theorem State.line_dropVerdict (s : State) (turn : LineTurn) : (s.dropVerdict turn).line
    = { s.line with errors := if turn = .last then 0 else s.line.errors } := rfl
@[simp] theorem State.owed_dropVerdict (s : State) (turn : LineTurn) : (s.dropVerdict turn).owed = { s.owed with verdict := none } := rfl

/-! `takeVerdict` leaves what no change of state touches. -/

section

variable (s : State) (v : Verdict)

@[simp] theorem State.exch_takeVerdict : (s.takeVerdict v).exch = s.exch := by
  unfold State.takeVerdict; split
  · unfold State.join; split <;> simp
  · simp
  · simp
  · rfl
@[simp] theorem State.cfg_takeVerdict : (s.takeVerdict v).cfg = s.cfg := by
  unfold State.takeVerdict; split
  · unfold State.join; split <;> simp
  · simp
  · simp
  · rfl
@[simp] theorem State.pins_takeVerdict : (s.takeVerdict v).pins = s.pins := by
  unfold State.takeVerdict; split
  · unfold State.join; split <;> simp
  · simp
  · simp
  · rfl
@[simp] theorem State.pending_takeVerdict : (s.takeVerdict v).pending = s.pending := by
  unfold State.takeVerdict; split
  · unfold State.join; split <;> simp
  · simp
  · simp
  · rfl

end

/-! `takeVerdict` at the service port. -/

section

variable (s : State) (v : Verdict)

@[simp] theorem State.transaction_takeVerdict : (s.takeVerdict v).port.transaction = s.port.transaction := by
  unfold State.takeVerdict; split
  · unfold State.join; split <;> simp
  · simp
  · simp
  · rfl
@[simp] theorem State.response_takeVerdict : (s.takeVerdict v).port.response = s.port.response := by
  unfold State.takeVerdict; split
  · unfold State.join; split <;> simp
  · simp
  · simp
  · rfl
@[simp] theorem State.work_takeVerdict : (s.takeVerdict v).port.work = s.port.work := by
  unfold State.takeVerdict; split
  · unfold State.join; split <;> simp
  · simp
  · simp
  · rfl
@[simp] theorem State.block_takeVerdict : (s.takeVerdict v).port.block = s.port.block := by
  unfold State.takeVerdict; split
  · unfold State.join; split <;> simp
  · simp
  · simp
  · rfl

end

/-! `takeHandedVerdict` leaves what no change of state touches. -/

section

variable (s : State) 

@[simp] theorem State.exch_takeHandedVerdict : s.takeHandedVerdict.exch = s.exch := by unfold State.takeHandedVerdict; split <;> simp
@[simp] theorem State.cfg_takeHandedVerdict : s.takeHandedVerdict.cfg = s.cfg := by unfold State.takeHandedVerdict; split <;> simp
@[simp] theorem State.pins_takeHandedVerdict : s.takeHandedVerdict.pins = s.pins := by unfold State.takeHandedVerdict; split <;> simp
@[simp] theorem State.pending_takeHandedVerdict : s.takeHandedVerdict.pending = s.pending := by unfold State.takeHandedVerdict; split <;> simp

end

/-! `takeHandedVerdict` at the service port. -/

section

variable (s : State) 

@[simp] theorem State.transaction_takeHandedVerdict : (s.takeHandedVerdict).port.transaction = s.port.transaction := by unfold State.takeHandedVerdict; split <;> simp
@[simp] theorem State.response_takeHandedVerdict : (s.takeHandedVerdict).port.response = s.port.response := by unfold State.takeHandedVerdict; split <;> simp
@[simp] theorem State.work_takeHandedVerdict : (s.takeHandedVerdict).port.work = s.port.work := by unfold State.takeHandedVerdict; split <;> simp
@[simp] theorem State.block_takeHandedVerdict : (s.takeHandedVerdict).port.block = s.port.block := by unfold State.takeHandedVerdict; split <;> simp

end

/-- A verdict that the station state gives no effect is void: nothing changes but that it is no longer handed and that the line unit
has taken the boundary (R10, R73, R74). -/
theorem State.takeHandedVerdict_void {s : State} {h : HandedVerdict} (handed : s.owed.verdict = some h)
    (void : (s.dropVerdict h.turn).takeVerdict h.verdict = s.dropVerdict h.turn) :
    s.takeHandedVerdict = (s.dropVerdict h.turn).lineErrors .last h.turn s.line.errors s.now := by
  simp [State.takeHandedVerdict, handed, void]

/-! ### Firing (R104) and reflexes (R162) -/

/-! `fireDue` changes only out, port, sched, owed. -/

section

variable (s : State) (c : Time)

@[simp] theorem State.member_fireDue : (s.fireDue c).member = s.member := by
  unfold State.fireDue; dsimp only
  suffices ∀ (l : List Entry) (s1 : State), (l.foldl (fun s e => s.fire e none) s1).member = s1.member from this _ _
  intro l
  induction l with
  | nil => intro s1; rfl
  | cons e rest ih => intro s1; rw [List.foldl_cons, ih]; simp
@[simp] theorem State.line_fireDue : (s.fireDue c).line = s.line := by
  unfold State.fireDue; dsimp only
  suffices ∀ (l : List Entry) (s1 : State), (l.foldl (fun s e => s.fire e none) s1).line = s1.line from this _ _
  intro l
  induction l with
  | nil => intro s1; rfl
  | cons e rest ih => intro s1; rw [List.foldl_cons, ih]; simp
@[simp] theorem State.cont_fireDue : (s.fireDue c).cont = s.cont := by
  unfold State.fireDue; dsimp only
  suffices ∀ (l : List Entry) (s1 : State), (l.foldl (fun s e => s.fire e none) s1).cont = s1.cont from this _ _
  intro l
  induction l with
  | nil => intro s1; rfl
  | cons e rest ih => intro s1; rw [List.foldl_cons, ih]; simp
@[simp] theorem State.clock_fireDue : (s.fireDue c).clock = s.clock := by
  unfold State.fireDue; dsimp only
  suffices ∀ (l : List Entry) (s1 : State), (l.foldl (fun s e => s.fire e none) s1).clock = s1.clock from this _ _
  intro l
  induction l with
  | nil => intro s1; rfl
  | cons e rest ih => intro s1; rw [List.foldl_cons, ih]; simp
@[simp] theorem State.sync_fireDue : (s.fireDue c).sync = s.sync := by
  unfold State.fireDue; dsimp only
  suffices ∀ (l : List Entry) (s1 : State), (l.foldl (fun s e => s.fire e none) s1).sync = s1.sync from this _ _
  intro l
  induction l with
  | nil => intro s1; rfl
  | cons e rest ih => intro s1; rw [List.foldl_cons, ih]; simp
@[simp] theorem State.exch_fireDue : (s.fireDue c).exch = s.exch := by
  unfold State.fireDue; dsimp only
  suffices ∀ (l : List Entry) (s1 : State), (l.foldl (fun s e => s.fire e none) s1).exch = s1.exch from this _ _
  intro l
  induction l with
  | nil => intro s1; rfl
  | cons e rest ih => intro s1; rw [List.foldl_cons, ih]; simp
@[simp] theorem State.cap_fireDue : (s.fireDue c).cap = s.cap := by
  unfold State.fireDue; dsimp only
  suffices ∀ (l : List Entry) (s1 : State), (l.foldl (fun s e => s.fire e none) s1).cap = s1.cap from this _ _
  intro l
  induction l with
  | nil => intro s1; rfl
  | cons e rest ih => intro s1; rw [List.foldl_cons, ih]; simp
@[simp] theorem State.cfg_fireDue : (s.fireDue c).cfg = s.cfg := by
  unfold State.fireDue; dsimp only
  suffices ∀ (l : List Entry) (s1 : State), (l.foldl (fun s e => s.fire e none) s1).cfg = s1.cfg from this _ _
  intro l
  induction l with
  | nil => intro s1; rfl
  | cons e rest ih => intro s1; rw [List.foldl_cons, ih]; simp
@[simp] theorem State.pins_fireDue : (s.fireDue c).pins = s.pins := by
  unfold State.fireDue; dsimp only
  suffices ∀ (l : List Entry) (s1 : State), (l.foldl (fun s e => s.fire e none) s1).pins = s1.pins from this _ _
  intro l
  induction l with
  | nil => intro s1; rfl
  | cons e rest ih => intro s1; rw [List.foldl_cons, ih]; simp
@[simp] theorem State.pending_fireDue : (s.fireDue c).pending = s.pending := by
  unfold State.fireDue; dsimp only
  suffices ∀ (l : List Entry) (s1 : State), (l.foldl (fun s e => s.fire e none) s1).pending = s1.pending from this _ _
  intro l
  induction l with
  | nil => intro s1; rfl
  | cons e rest ih => intro s1; rw [List.foldl_cons, ih]; simp

end

/-! `takeSerial` changes only cap. -/

section

variable (s : State) 

@[simp] theorem State.member_takeSerial : (s.takeSerial).member = s.member := rfl
@[simp] theorem State.line_takeSerial : (s.takeSerial).line = s.line := rfl
@[simp] theorem State.cont_takeSerial : (s.takeSerial).cont = s.cont := rfl
@[simp] theorem State.clock_takeSerial : (s.takeSerial).clock = s.clock := rfl
@[simp] theorem State.sync_takeSerial : (s.takeSerial).sync = s.sync := rfl
@[simp] theorem State.sched_takeSerial : (s.takeSerial).sched = s.sched := rfl
@[simp] theorem State.out_takeSerial : (s.takeSerial).out = s.out := rfl
@[simp] theorem State.exch_takeSerial : (s.takeSerial).exch = s.exch := rfl
@[simp] theorem State.port_takeSerial : (s.takeSerial).port = s.port := rfl
@[simp] theorem State.cfg_takeSerial : (s.takeSerial).cfg = s.cfg := rfl
@[simp] theorem State.pins_takeSerial : (s.takeSerial).pins = s.pins := rfl
@[simp] theorem State.owed_takeSerial : (s.takeSerial).owed = s.owed := rfl
@[simp] theorem State.pending_takeSerial : (s.takeSerial).pending = s.pending := rfl

end

/-! `reportNotSent` changes only port, owed. -/

section

variable (s : State) (earlier : Nat) (kind : FrameKind) (n : Fin 16)

@[simp] theorem State.member_reportNotSent : (s.reportNotSent earlier kind n).member = s.member := by
  unfold State.reportNotSent; split
  · simp
  · split <;> simp
@[simp] theorem State.line_reportNotSent : (s.reportNotSent earlier kind n).line = s.line := by
  unfold State.reportNotSent; split
  · simp
  · split <;> simp
@[simp] theorem State.cont_reportNotSent : (s.reportNotSent earlier kind n).cont = s.cont := by
  unfold State.reportNotSent; split
  · simp
  · split <;> simp
@[simp] theorem State.clock_reportNotSent : (s.reportNotSent earlier kind n).clock = s.clock := by
  unfold State.reportNotSent; split
  · simp
  · split <;> simp
@[simp] theorem State.sync_reportNotSent : (s.reportNotSent earlier kind n).sync = s.sync := by
  unfold State.reportNotSent; split
  · simp
  · split <;> simp
@[simp] theorem State.sched_reportNotSent : (s.reportNotSent earlier kind n).sched = s.sched := by
  unfold State.reportNotSent; split
  · simp
  · split <;> simp
@[simp] theorem State.out_reportNotSent : (s.reportNotSent earlier kind n).out = s.out := by
  unfold State.reportNotSent; split
  · simp
  · split <;> simp
@[simp] theorem State.exch_reportNotSent : (s.reportNotSent earlier kind n).exch = s.exch := by
  unfold State.reportNotSent; split
  · simp
  · split <;> simp
@[simp] theorem State.cap_reportNotSent : (s.reportNotSent earlier kind n).cap = s.cap := by
  unfold State.reportNotSent; split
  · simp
  · split <;> simp
@[simp] theorem State.cfg_reportNotSent : (s.reportNotSent earlier kind n).cfg = s.cfg := by
  unfold State.reportNotSent; split
  · simp
  · split <;> simp
@[simp] theorem State.pins_reportNotSent : (s.reportNotSent earlier kind n).pins = s.pins := by
  unfold State.reportNotSent; split
  · simp
  · split <;> simp
@[simp] theorem State.pending_reportNotSent : (s.reportNotSent earlier kind n).pending = s.pending := by
  unfold State.reportNotSent; split
  · simp
  · split <;> simp

end

/-! `reportNotSent` touches no other part of what is owed than the insertions. -/

section

variable (s : State) (earlier : Nat) (kind : FrameKind) (n : Fin 16)

@[simp] theorem State.boundary_reportNotSent : (s.reportNotSent earlier kind n).owed.boundary = s.owed.boundary := by
  unfold State.reportNotSent; split
  · simp
  · split <;> simp
@[simp] theorem State.fireFrom_reportNotSent : (s.reportNotSent earlier kind n).owed.fireFrom = s.owed.fireFrom := by
  unfold State.reportNotSent; split
  · simp
  · split <;> simp
@[simp] theorem State.verdict_reportNotSent : (s.reportNotSent earlier kind n).owed.verdict = s.owed.verdict := by
  unfold State.reportNotSent; split
  · simp
  · split <;> simp
@[simp] theorem State.exchange_reportNotSent : (s.reportNotSent earlier kind n).owed.exchange = s.owed.exchange := by
  unfold State.reportNotSent; split
  · simp
  · split <;> simp

end

/-- What becomes of the NOT_SENT report of a reflex: with no insertion of its edge waiting it is queued, else it waits behind the last one (R166). -/
theorem State.reportNotSent_cases (s : State) (earlier : Nat) (kind : FrameKind) (n : Fin 16) :
    (s.owed.insertions.length ≤ earlier ∧ s.reportNotSent earlier kind n = s.report (.notSent kind (.reflex n none)))
    ∨ ∃ before h, earlier ≤ before.length ∧ s.owed.insertions = before ++ [h] ∧ s.reportNotSent earlier kind n
        = s.withOwed { s.owed with insertions := before ++ [{ h with behind := h.behind ++ [{ kind := kind, entry := n, stamp := s.stampTime, unsynced := s.unsynced }] }] } := by
  by_cases none : s.owed.insertions.length ≤ earlier
  · exact .inl ⟨none, by simp [State.reportNotSent, none]⟩
  · rcases List.eq_nil_or_concat s.owed.insertions with empty | ⟨before, h, some⟩
    · simp [empty] at none
    · refine .inr ⟨before, h, ?_, by simp [some], ?_⟩
      · simp [some] at none; omega
      · unfold State.reportNotSent; rw [if_neg none]; simp [some]

/-! `publish` changes only cont, cap, port, owed. -/

section

variable (s : State) (earlier : Nat) (n : Fin 16) (x : ReflexEntry) (stamp : Time)

@[simp] theorem State.member_publish : (s.publish earlier n x stamp).member = s.member := by
  have h := s.member_enqueue (.fresh (.event x.selector x.input x.edge stamp s.cap.eventCounter) false (some n))
  unfold State.publish; split <;> (rename_i h'; rw [h'] at h; simp_all)
@[simp] theorem State.line_publish : (s.publish earlier n x stamp).line = s.line := by
  have h := s.line_enqueue (.fresh (.event x.selector x.input x.edge stamp s.cap.eventCounter) false (some n))
  unfold State.publish; split <;> (rename_i h'; rw [h'] at h; simp_all)
@[simp] theorem State.clock_publish : (s.publish earlier n x stamp).clock = s.clock := by
  have h := s.clock_enqueue (.fresh (.event x.selector x.input x.edge stamp s.cap.eventCounter) false (some n))
  unfold State.publish; split <;> (rename_i h'; rw [h'] at h; simp_all)
@[simp] theorem State.sync_publish : (s.publish earlier n x stamp).sync = s.sync := by
  have h := s.sync_enqueue (.fresh (.event x.selector x.input x.edge stamp s.cap.eventCounter) false (some n))
  unfold State.publish; split <;> (rename_i h'; rw [h'] at h; simp_all)
@[simp] theorem State.sched_publish : (s.publish earlier n x stamp).sched = s.sched := by
  have h := s.sched_enqueue (.fresh (.event x.selector x.input x.edge stamp s.cap.eventCounter) false (some n))
  unfold State.publish; split <;> (rename_i h'; rw [h'] at h; simp_all)
@[simp] theorem State.out_publish : (s.publish earlier n x stamp).out = s.out := by
  have h := s.out_enqueue (.fresh (.event x.selector x.input x.edge stamp s.cap.eventCounter) false (some n))
  unfold State.publish; split <;> (rename_i h'; rw [h'] at h; simp_all)
@[simp] theorem State.exch_publish : (s.publish earlier n x stamp).exch = s.exch := by
  have h := s.exch_enqueue (.fresh (.event x.selector x.input x.edge stamp s.cap.eventCounter) false (some n))
  unfold State.publish; split <;> (rename_i h'; rw [h'] at h; simp_all)
@[simp] theorem State.cfg_publish : (s.publish earlier n x stamp).cfg = s.cfg := by
  have h := s.cfg_enqueue (.fresh (.event x.selector x.input x.edge stamp s.cap.eventCounter) false (some n))
  unfold State.publish; split <;> (rename_i h'; rw [h'] at h; simp_all)
@[simp] theorem State.pins_publish : (s.publish earlier n x stamp).pins = s.pins := by
  have h := s.pins_enqueue (.fresh (.event x.selector x.input x.edge stamp s.cap.eventCounter) false (some n))
  unfold State.publish; split <;> (rename_i h'; rw [h'] at h; simp_all)
@[simp] theorem State.pending_publish : (s.publish earlier n x stamp).pending = s.pending := by
  have h := s.pending_enqueue (.fresh (.event x.selector x.input x.edge stamp s.cap.eventCounter) false (some n))
  unfold State.publish; split <;> (rename_i h'; rw [h'] at h; simp_all)

end

/-! `publish` touches no other part of what is owed than the insertions. -/

section

variable (s : State) (earlier : Nat) (n : Fin 16) (x : ReflexEntry) (stamp : Time)

@[simp] theorem State.boundary_publish : (s.publish earlier n x stamp).owed.boundary = s.owed.boundary := by
  have h := s.owed_enqueue (.fresh (.event x.selector x.input x.edge stamp s.cap.eventCounter) false (some n))
  unfold State.publish; split <;> (rename_i h'; rw [h'] at h; simp_all)
@[simp] theorem State.fireFrom_publish : (s.publish earlier n x stamp).owed.fireFrom = s.owed.fireFrom := by
  have h := s.owed_enqueue (.fresh (.event x.selector x.input x.edge stamp s.cap.eventCounter) false (some n))
  unfold State.publish; split <;> (rename_i h'; rw [h'] at h; simp_all)
@[simp] theorem State.verdict_publish : (s.publish earlier n x stamp).owed.verdict = s.owed.verdict := by
  have h := s.owed_enqueue (.fresh (.event x.selector x.input x.edge stamp s.cap.eventCounter) false (some n))
  unfold State.publish; split <;> (rename_i h'; rw [h'] at h; simp_all)
@[simp] theorem State.exchange_publish : (s.publish earlier n x stamp).owed.exchange = s.owed.exchange := by
  have h := s.owed_enqueue (.fresh (.event x.selector x.input x.edge stamp s.cap.eventCounter) false (some n))
  unfold State.publish; split <;> (rename_i h'; rw [h'] at h; simp_all)

end

/-! `reflexPost` changes only cont, cap, port, owed. -/

section

variable (s : State) (earlier : Nat) (n : Fin 16) (x : ReflexEntry) (stamp : Time)

@[simp] theorem State.member_reflexPost : (s.reflexPost earlier n x stamp).member = s.member := by
  have h := s.member_enqueue (.fresh (.action (s.reflexAction x stamp)) true (some n))
  unfold State.reflexPost; split <;> (rename_i h'; rw [h'] at h; simp_all)
@[simp] theorem State.line_reflexPost : (s.reflexPost earlier n x stamp).line = s.line := by
  have h := s.line_enqueue (.fresh (.action (s.reflexAction x stamp)) true (some n))
  unfold State.reflexPost; split <;> (rename_i h'; rw [h'] at h; simp_all)
@[simp] theorem State.clock_reflexPost : (s.reflexPost earlier n x stamp).clock = s.clock := by
  have h := s.clock_enqueue (.fresh (.action (s.reflexAction x stamp)) true (some n))
  unfold State.reflexPost; split <;> (rename_i h'; rw [h'] at h; simp_all)
@[simp] theorem State.sync_reflexPost : (s.reflexPost earlier n x stamp).sync = s.sync := by
  have h := s.sync_enqueue (.fresh (.action (s.reflexAction x stamp)) true (some n))
  unfold State.reflexPost; split <;> (rename_i h'; rw [h'] at h; simp_all)
@[simp] theorem State.sched_reflexPost : (s.reflexPost earlier n x stamp).sched = s.sched := by
  have h := s.sched_enqueue (.fresh (.action (s.reflexAction x stamp)) true (some n))
  unfold State.reflexPost; split <;> (rename_i h'; rw [h'] at h; simp_all)
@[simp] theorem State.out_reflexPost : (s.reflexPost earlier n x stamp).out = s.out := by
  have h := s.out_enqueue (.fresh (.action (s.reflexAction x stamp)) true (some n))
  unfold State.reflexPost; split <;> (rename_i h'; rw [h'] at h; simp_all)
@[simp] theorem State.exch_reflexPost : (s.reflexPost earlier n x stamp).exch = s.exch := by
  have h := s.exch_enqueue (.fresh (.action (s.reflexAction x stamp)) true (some n))
  unfold State.reflexPost; split <;> (rename_i h'; rw [h'] at h; simp_all)
@[simp] theorem State.cfg_reflexPost : (s.reflexPost earlier n x stamp).cfg = s.cfg := by
  have h := s.cfg_enqueue (.fresh (.action (s.reflexAction x stamp)) true (some n))
  unfold State.reflexPost; split <;> (rename_i h'; rw [h'] at h; simp_all)
@[simp] theorem State.pins_reflexPost : (s.reflexPost earlier n x stamp).pins = s.pins := by
  have h := s.pins_enqueue (.fresh (.action (s.reflexAction x stamp)) true (some n))
  unfold State.reflexPost; split <;> (rename_i h'; rw [h'] at h; simp_all)
@[simp] theorem State.pending_reflexPost : (s.reflexPost earlier n x stamp).pending = s.pending := by
  have h := s.pending_enqueue (.fresh (.action (s.reflexAction x stamp)) true (some n))
  unfold State.reflexPost; split <;> (rename_i h'; rw [h'] at h; simp_all)

end

/-! `reflexPost` touches no other part of what is owed than the insertions. -/

section

variable (s : State) (earlier : Nat) (n : Fin 16) (x : ReflexEntry) (stamp : Time)

@[simp] theorem State.boundary_reflexPost : (s.reflexPost earlier n x stamp).owed.boundary = s.owed.boundary := by
  have h := s.owed_enqueue (.fresh (.action (s.reflexAction x stamp)) true (some n))
  unfold State.reflexPost; split <;> (rename_i h'; rw [h'] at h; simp_all)
@[simp] theorem State.fireFrom_reflexPost : (s.reflexPost earlier n x stamp).owed.fireFrom = s.owed.fireFrom := by
  have h := s.owed_enqueue (.fresh (.action (s.reflexAction x stamp)) true (some n))
  unfold State.reflexPost; split <;> (rename_i h'; rw [h'] at h; simp_all)
@[simp] theorem State.verdict_reflexPost : (s.reflexPost earlier n x stamp).owed.verdict = s.owed.verdict := by
  have h := s.owed_enqueue (.fresh (.action (s.reflexAction x stamp)) true (some n))
  unfold State.reflexPost; split <;> (rename_i h'; rw [h'] at h; simp_all)
@[simp] theorem State.exchange_reflexPost : (s.reflexPost earlier n x stamp).owed.exchange = s.owed.exchange := by
  have h := s.owed_enqueue (.fresh (.action (s.reflexAction x stamp)) true (some n))
  unfold State.reflexPost; split <;> (rename_i h'; rw [h'] at h; simp_all)

end

/-! `insertReflex` changes only sched, out, port. -/

section

variable (s : State) (a : ActionFields)

@[simp] theorem State.member_insertReflex : (s.insertReflex a).member = s.member := by
  have h := s.member_insert (a.entry s.number .reflex)
  unfold State.insertReflex; split; rename_i h'; rw [h'] at h; dsimp only at h; split <;> simp [h]
@[simp] theorem State.line_insertReflex : (s.insertReflex a).line = s.line := by
  have h := s.line_insert (a.entry s.number .reflex)
  unfold State.insertReflex; split; rename_i h'; rw [h'] at h; dsimp only at h; split <;> simp [h]
@[simp] theorem State.cont_insertReflex : (s.insertReflex a).cont = s.cont := by
  have h := s.cont_insert (a.entry s.number .reflex)
  unfold State.insertReflex; split; rename_i h'; rw [h'] at h; dsimp only at h; split <;> simp [h]
@[simp] theorem State.clock_insertReflex : (s.insertReflex a).clock = s.clock := by
  have h := s.clock_insert (a.entry s.number .reflex)
  unfold State.insertReflex; split; rename_i h'; rw [h'] at h; dsimp only at h; split <;> simp [h]
@[simp] theorem State.sync_insertReflex : (s.insertReflex a).sync = s.sync := by
  have h := s.sync_insert (a.entry s.number .reflex)
  unfold State.insertReflex; split; rename_i h'; rw [h'] at h; dsimp only at h; split <;> simp [h]
@[simp] theorem State.exch_insertReflex : (s.insertReflex a).exch = s.exch := by
  have h := s.exch_insert (a.entry s.number .reflex)
  unfold State.insertReflex; split; rename_i h'; rw [h'] at h; dsimp only at h; split <;> simp [h]
@[simp] theorem State.cap_insertReflex : (s.insertReflex a).cap = s.cap := by
  have h := s.cap_insert (a.entry s.number .reflex)
  unfold State.insertReflex; split; rename_i h'; rw [h'] at h; dsimp only at h; split <;> simp [h]
@[simp] theorem State.cfg_insertReflex : (s.insertReflex a).cfg = s.cfg := by
  have h := s.cfg_insert (a.entry s.number .reflex)
  unfold State.insertReflex; split; rename_i h'; rw [h'] at h; dsimp only at h; split <;> simp [h]
@[simp] theorem State.pins_insertReflex : (s.insertReflex a).pins = s.pins := by
  have h := s.pins_insert (a.entry s.number .reflex)
  unfold State.insertReflex; split; rename_i h'; rw [h'] at h; dsimp only at h; split <;> simp [h]
@[simp] theorem State.owed_insertReflex : (s.insertReflex a).owed = s.owed := by
  have h := s.owed_insert (a.entry s.number .reflex)
  unfold State.insertReflex; split; rename_i h'; rw [h'] at h; dsimp only at h; split <;> simp [h]
@[simp] theorem State.pending_insertReflex : (s.insertReflex a).pending = s.pending := by
  have h := s.pending_insert (a.entry s.number .reflex)
  unfold State.insertReflex; split; rename_i h'; rw [h'] at h; dsimp only at h; split <;> simp [h]

end

/-! `insertReflex` at the service port. -/

section

variable (s : State) (a : ActionFields)

@[simp] theorem State.transaction_insertReflex : (s.insertReflex a).port.transaction = s.port.transaction := by
  have h := s.transaction_insert (a.entry s.number .reflex)
  unfold State.insertReflex; split; rename_i h'; rw [h'] at h; dsimp only at h; split <;> simp [h]
@[simp] theorem State.response_insertReflex : (s.insertReflex a).port.response = s.port.response := by
  have h := s.response_insert (a.entry s.number .reflex)
  unfold State.insertReflex; split; rename_i h'; rw [h'] at h; dsimp only at h; split <;> simp [h]
@[simp] theorem State.work_insertReflex : (s.insertReflex a).port.work = s.port.work := by
  have h := s.work_insert (a.entry s.number .reflex)
  unfold State.insertReflex; split; rename_i h'; rw [h'] at h; dsimp only at h; split <;> simp [h]
@[simp] theorem State.block_insertReflex : (s.insertReflex a).port.block = s.port.block := by
  have h := s.block_insert (a.entry s.number .reflex)
  unfold State.insertReflex; split; rename_i h'; rw [h'] at h; dsimp only at h; split <;> simp [h]

end

/-! `insertNext` changes only sched, out, port, owed. -/

section

variable (s : State) 

@[simp] theorem State.member_insertNext : (s.insertNext).member = s.member := by
  unfold State.insertNext; split <;> simp
@[simp] theorem State.line_insertNext : (s.insertNext).line = s.line := by
  unfold State.insertNext; split <;> simp
@[simp] theorem State.cont_insertNext : (s.insertNext).cont = s.cont := by
  unfold State.insertNext; split <;> simp
@[simp] theorem State.clock_insertNext : (s.insertNext).clock = s.clock := by
  unfold State.insertNext; split <;> simp
@[simp] theorem State.sync_insertNext : (s.insertNext).sync = s.sync := by
  unfold State.insertNext; split <;> simp
@[simp] theorem State.exch_insertNext : (s.insertNext).exch = s.exch := by
  unfold State.insertNext; split <;> simp
@[simp] theorem State.cap_insertNext : (s.insertNext).cap = s.cap := by
  unfold State.insertNext; split <;> simp
@[simp] theorem State.cfg_insertNext : (s.insertNext).cfg = s.cfg := by
  unfold State.insertNext; split <;> simp
@[simp] theorem State.pins_insertNext : (s.insertNext).pins = s.pins := by
  unfold State.insertNext; split <;> simp
@[simp] theorem State.pending_insertNext : (s.insertNext).pending = s.pending := by
  unfold State.insertNext; split <;> simp

end

/-! `insertNext` touches no other part of what is owed than the insertions. -/

section

variable (s : State) 

@[simp] theorem State.boundary_insertNext : (s.insertNext).owed.boundary = s.owed.boundary := by
  unfold State.insertNext; split <;> simp
@[simp] theorem State.fireFrom_insertNext : (s.insertNext).owed.fireFrom = s.owed.fireFrom := by
  unfold State.insertNext; split <;> simp
@[simp] theorem State.verdict_insertNext : (s.insertNext).owed.verdict = s.owed.verdict := by
  unfold State.insertNext; split <;> simp
@[simp] theorem State.exchange_insertNext : (s.insertNext).owed.exchange = s.owed.exchange := by
  unfold State.insertNext; split <;> simp

end

/-! `insertNext` at the service port. -/

section

variable (s : State) 

@[simp] theorem State.transaction_insertNext : (s.insertNext).port.transaction = s.port.transaction := by
  unfold State.insertNext; split <;> simp
@[simp] theorem State.response_insertNext : (s.insertNext).port.response = s.port.response := by
  unfold State.insertNext; split <;> simp
@[simp] theorem State.work_insertNext : (s.insertNext).port.work = s.port.work := by
  unfold State.insertNext; split <;> simp
@[simp] theorem State.block_insertNext : (s.insertNext).port.block = s.port.block := by
  unfold State.insertNext; split <;> simp

end

/-- The insertion that was handed over first is no longer handed over; the others keep their order (R160). -/
@[simp] theorem State.insertions_insertNext (s : State) : s.insertNext.owed.insertions = s.owed.insertions.tail := by
  unfold State.insertNext; split <;> simp [*]

/-! `insertHandedOver` changes only sched, out, port, owed. -/

section

variable (s : State) 

@[simp] theorem State.member_insertHandedOver : (s.insertHandedOver).member = s.member := by
  unfold State.insertHandedOver
  induction s.owed.insertions generalizing s with
  | nil => rfl
  | cons h rest ih => rw [List.foldl_cons, ih]; simp
@[simp] theorem State.line_insertHandedOver : (s.insertHandedOver).line = s.line := by
  unfold State.insertHandedOver
  induction s.owed.insertions generalizing s with
  | nil => rfl
  | cons h rest ih => rw [List.foldl_cons, ih]; simp
@[simp] theorem State.cont_insertHandedOver : (s.insertHandedOver).cont = s.cont := by
  unfold State.insertHandedOver
  induction s.owed.insertions generalizing s with
  | nil => rfl
  | cons h rest ih => rw [List.foldl_cons, ih]; simp
@[simp] theorem State.clock_insertHandedOver : (s.insertHandedOver).clock = s.clock := by
  unfold State.insertHandedOver
  induction s.owed.insertions generalizing s with
  | nil => rfl
  | cons h rest ih => rw [List.foldl_cons, ih]; simp
@[simp] theorem State.sync_insertHandedOver : (s.insertHandedOver).sync = s.sync := by
  unfold State.insertHandedOver
  induction s.owed.insertions generalizing s with
  | nil => rfl
  | cons h rest ih => rw [List.foldl_cons, ih]; simp
@[simp] theorem State.exch_insertHandedOver : (s.insertHandedOver).exch = s.exch := by
  unfold State.insertHandedOver
  induction s.owed.insertions generalizing s with
  | nil => rfl
  | cons h rest ih => rw [List.foldl_cons, ih]; simp
@[simp] theorem State.cap_insertHandedOver : (s.insertHandedOver).cap = s.cap := by
  unfold State.insertHandedOver
  induction s.owed.insertions generalizing s with
  | nil => rfl
  | cons h rest ih => rw [List.foldl_cons, ih]; simp
@[simp] theorem State.cfg_insertHandedOver : (s.insertHandedOver).cfg = s.cfg := by
  unfold State.insertHandedOver
  induction s.owed.insertions generalizing s with
  | nil => rfl
  | cons h rest ih => rw [List.foldl_cons, ih]; simp
@[simp] theorem State.pins_insertHandedOver : (s.insertHandedOver).pins = s.pins := by
  unfold State.insertHandedOver
  induction s.owed.insertions generalizing s with
  | nil => rfl
  | cons h rest ih => rw [List.foldl_cons, ih]; simp
@[simp] theorem State.pending_insertHandedOver : (s.insertHandedOver).pending = s.pending := by
  unfold State.insertHandedOver
  induction s.owed.insertions generalizing s with
  | nil => rfl
  | cons h rest ih => rw [List.foldl_cons, ih]; simp

end

/-! `insertHandedOver` touches no other part of what is owed than the insertions. -/

section

variable (s : State) 

@[simp] theorem State.boundary_insertHandedOver : (s.insertHandedOver).owed.boundary = s.owed.boundary := by
  unfold State.insertHandedOver
  induction s.owed.insertions generalizing s with
  | nil => rfl
  | cons h rest ih => rw [List.foldl_cons, ih]; simp
@[simp] theorem State.fireFrom_insertHandedOver : (s.insertHandedOver).owed.fireFrom = s.owed.fireFrom := by
  unfold State.insertHandedOver
  induction s.owed.insertions generalizing s with
  | nil => rfl
  | cons h rest ih => rw [List.foldl_cons, ih]; simp
@[simp] theorem State.verdict_insertHandedOver : (s.insertHandedOver).owed.verdict = s.owed.verdict := by
  unfold State.insertHandedOver
  induction s.owed.insertions generalizing s with
  | nil => rfl
  | cons h rest ih => rw [List.foldl_cons, ih]; simp
@[simp] theorem State.exchange_insertHandedOver : (s.insertHandedOver).owed.exchange = s.owed.exchange := by
  unfold State.insertHandedOver
  induction s.owed.insertions generalizing s with
  | nil => rfl
  | cons h rest ih => rw [List.foldl_cons, ih]; simp

end

/-! `insertHandedOver` at the service port. -/

section

variable (s : State) 

@[simp] theorem State.transaction_insertHandedOver : (s.insertHandedOver).port.transaction = s.port.transaction := by
  unfold State.insertHandedOver
  induction s.owed.insertions generalizing s with
  | nil => rfl
  | cons h rest ih => rw [List.foldl_cons, ih]; simp
@[simp] theorem State.response_insertHandedOver : (s.insertHandedOver).port.response = s.port.response := by
  unfold State.insertHandedOver
  induction s.owed.insertions generalizing s with
  | nil => rfl
  | cons h rest ih => rw [List.foldl_cons, ih]; simp
@[simp] theorem State.work_insertHandedOver : (s.insertHandedOver).port.work = s.port.work := by
  unfold State.insertHandedOver
  induction s.owed.insertions generalizing s with
  | nil => rfl
  | cons h rest ih => rw [List.foldl_cons, ih]; simp
@[simp] theorem State.block_insertHandedOver : (s.insertHandedOver).port.block = s.port.block := by
  unfold State.insertHandedOver
  induction s.owed.insertions generalizing s with
  | nil => rfl
  | cons h rest ih => rw [List.foldl_cons, ih]; simp

end

/-- No insertion waits after all have been taken. -/
@[simp] theorem State.insertions_insertHandedOver (s : State) : s.insertHandedOver.owed.insertions = [] := by
  have taken : ∀ (l : List HandedOver) (s : State), s.owed.insertions.length = l.length →
      (l.foldl (fun s _ => s.insertNext) s).owed.insertions = [] := by
    intro l
    induction l with
    | nil => intro s h; exact List.eq_nil_of_length_eq_zero h
    | cons x rest ih => intro s h; exact ih _ (by simp [h])
  exact taken _ s rfl

/-! `reflexLocal` changes only sched, out, cap, port, owed. -/

section

variable (s : State) (atOnce : Bool) (x : ReflexEntry) (stamp : Time)

@[simp] theorem State.member_reflexLocal : (s.reflexLocal atOnce x stamp).member = s.member := by unfold State.reflexLocal; dsimp only; split <;> simp
@[simp] theorem State.line_reflexLocal : (s.reflexLocal atOnce x stamp).line = s.line := by unfold State.reflexLocal; dsimp only; split <;> simp
@[simp] theorem State.cont_reflexLocal : (s.reflexLocal atOnce x stamp).cont = s.cont := by unfold State.reflexLocal; dsimp only; split <;> simp
@[simp] theorem State.clock_reflexLocal : (s.reflexLocal atOnce x stamp).clock = s.clock := by unfold State.reflexLocal; dsimp only; split <;> simp
@[simp] theorem State.sync_reflexLocal : (s.reflexLocal atOnce x stamp).sync = s.sync := by unfold State.reflexLocal; dsimp only; split <;> simp
@[simp] theorem State.exch_reflexLocal : (s.reflexLocal atOnce x stamp).exch = s.exch := by unfold State.reflexLocal; dsimp only; split <;> simp
@[simp] theorem State.cfg_reflexLocal : (s.reflexLocal atOnce x stamp).cfg = s.cfg := by unfold State.reflexLocal; dsimp only; split <;> simp
@[simp] theorem State.pins_reflexLocal : (s.reflexLocal atOnce x stamp).pins = s.pins := by unfold State.reflexLocal; dsimp only; split <;> simp
@[simp] theorem State.pending_reflexLocal : (s.reflexLocal atOnce x stamp).pending = s.pending := by unfold State.reflexLocal; dsimp only; split <;> simp

end

/-! `reflexLocal` touches no other part of what is owed than the insertions. -/

section

variable (s : State) (atOnce : Bool) (x : ReflexEntry) (stamp : Time)

@[simp] theorem State.boundary_reflexLocal : (s.reflexLocal atOnce x stamp).owed.boundary = s.owed.boundary := by unfold State.reflexLocal; dsimp only; split <;> simp
@[simp] theorem State.fireFrom_reflexLocal : (s.reflexLocal atOnce x stamp).owed.fireFrom = s.owed.fireFrom := by unfold State.reflexLocal; dsimp only; split <;> simp
@[simp] theorem State.verdict_reflexLocal : (s.reflexLocal atOnce x stamp).owed.verdict = s.owed.verdict := by unfold State.reflexLocal; dsimp only; split <;> simp
@[simp] theorem State.exchange_reflexLocal : (s.reflexLocal atOnce x stamp).owed.exchange = s.owed.exchange := by unfold State.reflexLocal; dsimp only; split <;> simp

end

/-! `reflex` changes only cont, sched, out, cap, port, owed. -/

section

variable (s : State) (earlier : Nat) (atOnce : Bool) (n : Fin 16) (input : Fin 8) (edge : EdgeDir) (stamp : Time)

@[simp] theorem State.member_reflex : (s.reflex earlier atOnce n input edge stamp).member = s.member := by
  unfold State.reflex; dsimp only; split
  · split <;> simp
  · rfl
@[simp] theorem State.line_reflex : (s.reflex earlier atOnce n input edge stamp).line = s.line := by
  unfold State.reflex; dsimp only; split
  · split <;> simp
  · rfl
@[simp] theorem State.clock_reflex : (s.reflex earlier atOnce n input edge stamp).clock = s.clock := by
  unfold State.reflex; dsimp only; split
  · split <;> simp
  · rfl
@[simp] theorem State.sync_reflex : (s.reflex earlier atOnce n input edge stamp).sync = s.sync := by
  unfold State.reflex; dsimp only; split
  · split <;> simp
  · rfl
@[simp] theorem State.exch_reflex : (s.reflex earlier atOnce n input edge stamp).exch = s.exch := by
  unfold State.reflex; dsimp only; split
  · split <;> simp
  · rfl
@[simp] theorem State.cfg_reflex : (s.reflex earlier atOnce n input edge stamp).cfg = s.cfg := by
  unfold State.reflex; dsimp only; split
  · split <;> simp
  · rfl
@[simp] theorem State.pins_reflex : (s.reflex earlier atOnce n input edge stamp).pins = s.pins := by
  unfold State.reflex; dsimp only; split
  · split <;> simp
  · rfl
@[simp] theorem State.pending_reflex : (s.reflex earlier atOnce n input edge stamp).pending = s.pending := by
  unfold State.reflex; dsimp only; split
  · split <;> simp
  · rfl

end

/-! `reflex` touches no other part of what is owed than the insertions. -/

section

variable (s : State) (earlier : Nat) (atOnce : Bool) (n : Fin 16) (input : Fin 8) (edge : EdgeDir) (stamp : Time)

@[simp] theorem State.boundary_reflex : (s.reflex earlier atOnce n input edge stamp).owed.boundary = s.owed.boundary := by
  unfold State.reflex; dsimp only; split
  · split <;> simp
  · rfl
@[simp] theorem State.fireFrom_reflex : (s.reflex earlier atOnce n input edge stamp).owed.fireFrom = s.owed.fireFrom := by
  unfold State.reflex; dsimp only; split
  · split <;> simp
  · rfl
@[simp] theorem State.verdict_reflex : (s.reflex earlier atOnce n input edge stamp).owed.verdict = s.owed.verdict := by
  unfold State.reflex; dsimp only; split
  · split <;> simp
  · rfl
@[simp] theorem State.exchange_reflex : (s.reflex earlier atOnce n input edge stamp).owed.exchange = s.owed.exchange := by
  unfold State.reflex; dsimp only; split
  · split <;> simp
  · rfl

end

/-! `runReflexes` changes only cont, sched, out, cap, port, owed. -/

section

variable (s : State) (atOnce : Bool) (input : Fin 8) (edge : EdgeDir) (stamp : Time)

@[simp] theorem State.member_runReflexes : (s.runReflexes atOnce input edge stamp).member = s.member := by
  unfold State.runReflexes
  generalize s.owed.insertions.length = earlier
  induction List.finRange 16 generalizing s with
  | nil => rfl
  | cons i rest ih => rw [List.foldl_cons, ih]; simp
@[simp] theorem State.line_runReflexes : (s.runReflexes atOnce input edge stamp).line = s.line := by
  unfold State.runReflexes
  generalize s.owed.insertions.length = earlier
  induction List.finRange 16 generalizing s with
  | nil => rfl
  | cons i rest ih => rw [List.foldl_cons, ih]; simp
@[simp] theorem State.clock_runReflexes : (s.runReflexes atOnce input edge stamp).clock = s.clock := by
  unfold State.runReflexes
  generalize s.owed.insertions.length = earlier
  induction List.finRange 16 generalizing s with
  | nil => rfl
  | cons i rest ih => rw [List.foldl_cons, ih]; simp
@[simp] theorem State.sync_runReflexes : (s.runReflexes atOnce input edge stamp).sync = s.sync := by
  unfold State.runReflexes
  generalize s.owed.insertions.length = earlier
  induction List.finRange 16 generalizing s with
  | nil => rfl
  | cons i rest ih => rw [List.foldl_cons, ih]; simp
@[simp] theorem State.exch_runReflexes : (s.runReflexes atOnce input edge stamp).exch = s.exch := by
  unfold State.runReflexes
  generalize s.owed.insertions.length = earlier
  induction List.finRange 16 generalizing s with
  | nil => rfl
  | cons i rest ih => rw [List.foldl_cons, ih]; simp
@[simp] theorem State.cfg_runReflexes : (s.runReflexes atOnce input edge stamp).cfg = s.cfg := by
  unfold State.runReflexes
  generalize s.owed.insertions.length = earlier
  induction List.finRange 16 generalizing s with
  | nil => rfl
  | cons i rest ih => rw [List.foldl_cons, ih]; simp
@[simp] theorem State.pins_runReflexes : (s.runReflexes atOnce input edge stamp).pins = s.pins := by
  unfold State.runReflexes
  generalize s.owed.insertions.length = earlier
  induction List.finRange 16 generalizing s with
  | nil => rfl
  | cons i rest ih => rw [List.foldl_cons, ih]; simp
@[simp] theorem State.pending_runReflexes : (s.runReflexes atOnce input edge stamp).pending = s.pending := by
  unfold State.runReflexes
  generalize s.owed.insertions.length = earlier
  induction List.finRange 16 generalizing s with
  | nil => rfl
  | cons i rest ih => rw [List.foldl_cons, ih]; simp

end

/-! `runReflexes` touches no other part of what is owed than the insertions. -/

section

variable (s : State) (atOnce : Bool) (input : Fin 8) (edge : EdgeDir) (stamp : Time)

@[simp] theorem State.boundary_runReflexes : (s.runReflexes atOnce input edge stamp).owed.boundary = s.owed.boundary := by
  unfold State.runReflexes
  generalize s.owed.insertions.length = earlier
  induction List.finRange 16 generalizing s with
  | nil => rfl
  | cons i rest ih => rw [List.foldl_cons, ih]; simp
@[simp] theorem State.fireFrom_runReflexes : (s.runReflexes atOnce input edge stamp).owed.fireFrom = s.owed.fireFrom := by
  unfold State.runReflexes
  generalize s.owed.insertions.length = earlier
  induction List.finRange 16 generalizing s with
  | nil => rfl
  | cons i rest ih => rw [List.foldl_cons, ih]; simp
@[simp] theorem State.verdict_runReflexes : (s.runReflexes atOnce input edge stamp).owed.verdict = s.owed.verdict := by
  unfold State.runReflexes
  generalize s.owed.insertions.length = earlier
  induction List.finRange 16 generalizing s with
  | nil => rfl
  | cons i rest ih => rw [List.foldl_cons, ih]; simp
@[simp] theorem State.exchange_runReflexes : (s.runReflexes atOnce input edge stamp).owed.exchange = s.owed.exchange := by
  unfold State.runReflexes
  generalize s.owed.insertions.length = earlier
  induction List.finRange 16 generalizing s with
  | nil => rfl
  | cons i rest ih => rw [List.foldl_cons, ih]; simp

end

/-! `takeEdge` changes only cont, sched, out, cap, port, owed. -/

section

variable (s : State) (atOnce : Bool) (input : Fin 8) (edge : EdgeDir) (first : SampleRecord)

@[simp] theorem State.member_takeEdge : (s.takeEdge atOnce input edge first).member = s.member := by
  unfold State.takeEdge; dsimp only; split
  · split <;> simp
  · rfl
@[simp] theorem State.line_takeEdge : (s.takeEdge atOnce input edge first).line = s.line := by
  unfold State.takeEdge; dsimp only; split
  · split <;> simp
  · rfl
@[simp] theorem State.clock_takeEdge : (s.takeEdge atOnce input edge first).clock = s.clock := by
  unfold State.takeEdge; dsimp only; split
  · split <;> simp
  · rfl
@[simp] theorem State.sync_takeEdge : (s.takeEdge atOnce input edge first).sync = s.sync := by
  unfold State.takeEdge; dsimp only; split
  · split <;> simp
  · rfl
@[simp] theorem State.exch_takeEdge : (s.takeEdge atOnce input edge first).exch = s.exch := by
  unfold State.takeEdge; dsimp only; split
  · split <;> simp
  · rfl
@[simp] theorem State.cfg_takeEdge : (s.takeEdge atOnce input edge first).cfg = s.cfg := by
  unfold State.takeEdge; dsimp only; split
  · split <;> simp
  · rfl
@[simp] theorem State.pins_takeEdge : (s.takeEdge atOnce input edge first).pins = s.pins := by
  unfold State.takeEdge; dsimp only; split
  · split <;> simp
  · rfl
@[simp] theorem State.pending_takeEdge : (s.takeEdge atOnce input edge first).pending = s.pending := by
  unfold State.takeEdge; dsimp only; split
  · split <;> simp
  · rfl

end

/-! `takeEdge` touches no other part of what is owed than the insertions. -/

section

variable (s : State) (atOnce : Bool) (input : Fin 8) (edge : EdgeDir) (first : SampleRecord)

@[simp] theorem State.boundary_takeEdge : (s.takeEdge atOnce input edge first).owed.boundary = s.owed.boundary := by
  unfold State.takeEdge; dsimp only; split
  · split <;> simp
  · rfl
@[simp] theorem State.fireFrom_takeEdge : (s.takeEdge atOnce input edge first).owed.fireFrom = s.owed.fireFrom := by
  unfold State.takeEdge; dsimp only; split
  · split <;> simp
  · rfl
@[simp] theorem State.verdict_takeEdge : (s.takeEdge atOnce input edge first).owed.verdict = s.owed.verdict := by
  unfold State.takeEdge; dsimp only; split
  · split <;> simp
  · rfl
@[simp] theorem State.exchange_takeEdge : (s.takeEdge atOnce input edge first).owed.exchange = s.owed.exchange := by
  unfold State.takeEdge; dsimp only; split
  · split <;> simp
  · rfl

end

/-! `qualify` changes only cont, sched, out, cap, port, owed. -/

section

variable (s : State) (atOnce : Bool) (input : Fin 8)

@[simp] theorem State.member_qualify : (s.qualify atOnce input).member = s.member := by
  unfold State.qualify; split
  · rfl
  · dsimp only; split
    · rfl
    · split <;> simp
@[simp] theorem State.line_qualify : (s.qualify atOnce input).line = s.line := by
  unfold State.qualify; split
  · rfl
  · dsimp only; split
    · rfl
    · split <;> simp
@[simp] theorem State.clock_qualify : (s.qualify atOnce input).clock = s.clock := by
  unfold State.qualify; split
  · rfl
  · dsimp only; split
    · rfl
    · split <;> simp
@[simp] theorem State.sync_qualify : (s.qualify atOnce input).sync = s.sync := by
  unfold State.qualify; split
  · rfl
  · dsimp only; split
    · rfl
    · split <;> simp
@[simp] theorem State.exch_qualify : (s.qualify atOnce input).exch = s.exch := by
  unfold State.qualify; split
  · rfl
  · dsimp only; split
    · rfl
    · split <;> simp
@[simp] theorem State.cfg_qualify : (s.qualify atOnce input).cfg = s.cfg := by
  unfold State.qualify; split
  · rfl
  · dsimp only; split
    · rfl
    · split <;> simp
@[simp] theorem State.pins_qualify : (s.qualify atOnce input).pins = s.pins := by
  unfold State.qualify; split
  · rfl
  · dsimp only; split
    · rfl
    · split <;> simp
@[simp] theorem State.pending_qualify : (s.qualify atOnce input).pending = s.pending := by
  unfold State.qualify; split
  · rfl
  · dsimp only; split
    · rfl
    · split <;> simp

end

/-! `qualify` touches no other part of what is owed than the insertions. -/

section

variable (s : State) (atOnce : Bool) (input : Fin 8)

@[simp] theorem State.boundary_qualify : (s.qualify atOnce input).owed.boundary = s.owed.boundary := by
  unfold State.qualify; split
  · rfl
  · dsimp only; split
    · rfl
    · split <;> simp
@[simp] theorem State.fireFrom_qualify : (s.qualify atOnce input).owed.fireFrom = s.owed.fireFrom := by
  unfold State.qualify; split
  · rfl
  · dsimp only; split
    · rfl
    · split <;> simp
@[simp] theorem State.verdict_qualify : (s.qualify atOnce input).owed.verdict = s.owed.verdict := by
  unfold State.qualify; split
  · rfl
  · dsimp only; split
    · rfl
    · split <;> simp
@[simp] theorem State.exchange_qualify : (s.qualify atOnce input).owed.exchange = s.owed.exchange := by
  unfold State.qualify; split
  · rfl
  · dsimp only; split
    · rfl
    · split <;> simp

end

/-! ### What the exchange unit hands on (R136–R139) -/

/-! `applyClaim` at the service port. -/

section

variable (s : State) (o : Station) (src : Source) (p : Payload)

@[simp] theorem State.transaction_applyClaim : ((s.applyClaim o src p).1).port.transaction = s.port.transaction := by
  cases p <;> simp [State.applyClaim]
@[simp] theorem State.response_applyClaim : ((s.applyClaim o src p).1).port.response = s.port.response := by
  cases p <;> simp [State.applyClaim]
@[simp] theorem State.work_applyClaim : ((s.applyClaim o src p).1).port.work = s.port.work := by
  cases p <;> simp [State.applyClaim]
@[simp] theorem State.block_applyClaim : ((s.applyClaim o src p).1).port.block = s.port.block := by
  cases p <;> simp [State.applyClaim]

end

/-! `takeHandedOn` changes only cont, sched, out, port, owed. -/

section

variable (s : State) 

@[simp] theorem State.member_takeHandedOn : (s.takeHandedOn).member = s.member := by
  unfold State.takeHandedOn; split
  · rfl
  · rename_i sender p rest _
    have h := (s.withOwed { s.owed with exchange := rest }).member_applyClaim sender .remote p
    split <;> (rename_i h'; rw [h'] at h; simpa using h)
  · simp
@[simp] theorem State.line_takeHandedOn : (s.takeHandedOn).line = s.line := by
  unfold State.takeHandedOn; split
  · rfl
  · rename_i sender p rest _
    have h := (s.withOwed { s.owed with exchange := rest }).line_applyClaim sender .remote p
    split <;> (rename_i h'; rw [h'] at h; simpa using h)
  · simp
@[simp] theorem State.clock_takeHandedOn : (s.takeHandedOn).clock = s.clock := by
  unfold State.takeHandedOn; split
  · rfl
  · rename_i sender p rest _
    have h := (s.withOwed { s.owed with exchange := rest }).clock_applyClaim sender .remote p
    split <;> (rename_i h'; rw [h'] at h; simpa using h)
  · simp
@[simp] theorem State.sync_takeHandedOn : (s.takeHandedOn).sync = s.sync := by
  unfold State.takeHandedOn; split
  · rfl
  · rename_i sender p rest _
    have h := (s.withOwed { s.owed with exchange := rest }).sync_applyClaim sender .remote p
    split <;> (rename_i h'; rw [h'] at h; simpa using h)
  · simp
@[simp] theorem State.exch_takeHandedOn : (s.takeHandedOn).exch = s.exch := by
  unfold State.takeHandedOn; split
  · rfl
  · rename_i sender p rest _
    have h := (s.withOwed { s.owed with exchange := rest }).exch_applyClaim sender .remote p
    split <;> (rename_i h'; rw [h'] at h; simpa using h)
  · simp
@[simp] theorem State.cap_takeHandedOn : (s.takeHandedOn).cap = s.cap := by
  unfold State.takeHandedOn; split
  · rfl
  · rename_i sender p rest _
    have h := (s.withOwed { s.owed with exchange := rest }).cap_applyClaim sender .remote p
    split <;> (rename_i h'; rw [h'] at h; simpa using h)
  · simp
@[simp] theorem State.cfg_takeHandedOn : (s.takeHandedOn).cfg = s.cfg := by
  unfold State.takeHandedOn; split
  · rfl
  · rename_i sender p rest _
    have h := (s.withOwed { s.owed with exchange := rest }).cfg_applyClaim sender .remote p
    split <;> (rename_i h'; rw [h'] at h; simpa using h)
  · simp
@[simp] theorem State.pins_takeHandedOn : (s.takeHandedOn).pins = s.pins := by
  unfold State.takeHandedOn; split
  · rfl
  · rename_i sender p rest _
    have h := (s.withOwed { s.owed with exchange := rest }).pins_applyClaim sender .remote p
    split <;> (rename_i h'; rw [h'] at h; simpa using h)
  · simp
@[simp] theorem State.pending_takeHandedOn : (s.takeHandedOn).pending = s.pending := by
  unfold State.takeHandedOn; split
  · rfl
  · rename_i sender p rest _
    have h := (s.withOwed { s.owed with exchange := rest }).pending_applyClaim sender .remote p
    split <;> (rename_i h'; rw [h'] at h; simpa using h)
  · simp

end

/-! `takeHandedOn` at the service port. -/

section

variable (s : State) 

@[simp] theorem State.transaction_takeHandedOn : (s.takeHandedOn).port.transaction = s.port.transaction := by
  unfold State.takeHandedOn; split
  · rfl
  · rename_i sender p rest _
    have h := (s.withOwed { s.owed with exchange := rest }).transaction_applyClaim sender .remote p
    split <;> (rename_i h'; rw [h'] at h; simpa using h)
  · simp
@[simp] theorem State.response_takeHandedOn : (s.takeHandedOn).port.response = s.port.response := by
  unfold State.takeHandedOn; split
  · rfl
  · rename_i sender p rest _
    have h := (s.withOwed { s.owed with exchange := rest }).response_applyClaim sender .remote p
    split <;> (rename_i h'; rw [h'] at h; simpa using h)
  · simp
@[simp] theorem State.work_takeHandedOn : (s.takeHandedOn).port.work = s.port.work := by
  unfold State.takeHandedOn; split
  · rfl
  · rename_i sender p rest _
    have h := (s.withOwed { s.owed with exchange := rest }).work_applyClaim sender .remote p
    split <;> (rename_i h'; rw [h'] at h; simpa using h)
  · simp
@[simp] theorem State.block_takeHandedOn : (s.takeHandedOn).port.block = s.port.block := by
  unfold State.takeHandedOn; split
  · rfl
  · rename_i sender p rest _
    have h := (s.withOwed { s.owed with exchange := rest }).block_applyClaim sender .remote p
    split <;> (rename_i h'; rw [h'] at h; simpa using h)
  · simp

end

/-! `takeAllHandedOn` changes only cont, sched, out, port, owed. -/

section

variable (s : State) 

@[simp] theorem State.member_takeAllHandedOn : (s.takeAllHandedOn).member = s.member := by
  unfold State.takeAllHandedOn
  generalize List.range (2 * s.owed.exchange.length) = l
  induction l generalizing s with
  | nil => rfl
  | cons i rest ih => rw [List.foldl_cons, ih]; simp
@[simp] theorem State.line_takeAllHandedOn : (s.takeAllHandedOn).line = s.line := by
  unfold State.takeAllHandedOn
  generalize List.range (2 * s.owed.exchange.length) = l
  induction l generalizing s with
  | nil => rfl
  | cons i rest ih => rw [List.foldl_cons, ih]; simp
@[simp] theorem State.clock_takeAllHandedOn : (s.takeAllHandedOn).clock = s.clock := by
  unfold State.takeAllHandedOn
  generalize List.range (2 * s.owed.exchange.length) = l
  induction l generalizing s with
  | nil => rfl
  | cons i rest ih => rw [List.foldl_cons, ih]; simp
@[simp] theorem State.sync_takeAllHandedOn : (s.takeAllHandedOn).sync = s.sync := by
  unfold State.takeAllHandedOn
  generalize List.range (2 * s.owed.exchange.length) = l
  induction l generalizing s with
  | nil => rfl
  | cons i rest ih => rw [List.foldl_cons, ih]; simp
@[simp] theorem State.exch_takeAllHandedOn : (s.takeAllHandedOn).exch = s.exch := by
  unfold State.takeAllHandedOn
  generalize List.range (2 * s.owed.exchange.length) = l
  induction l generalizing s with
  | nil => rfl
  | cons i rest ih => rw [List.foldl_cons, ih]; simp
@[simp] theorem State.cap_takeAllHandedOn : (s.takeAllHandedOn).cap = s.cap := by
  unfold State.takeAllHandedOn
  generalize List.range (2 * s.owed.exchange.length) = l
  induction l generalizing s with
  | nil => rfl
  | cons i rest ih => rw [List.foldl_cons, ih]; simp
@[simp] theorem State.cfg_takeAllHandedOn : (s.takeAllHandedOn).cfg = s.cfg := by
  unfold State.takeAllHandedOn
  generalize List.range (2 * s.owed.exchange.length) = l
  induction l generalizing s with
  | nil => rfl
  | cons i rest ih => rw [List.foldl_cons, ih]; simp
@[simp] theorem State.pins_takeAllHandedOn : (s.takeAllHandedOn).pins = s.pins := by
  unfold State.takeAllHandedOn
  generalize List.range (2 * s.owed.exchange.length) = l
  induction l generalizing s with
  | nil => rfl
  | cons i rest ih => rw [List.foldl_cons, ih]; simp
@[simp] theorem State.pending_takeAllHandedOn : (s.takeAllHandedOn).pending = s.pending := by
  unfold State.takeAllHandedOn
  generalize List.range (2 * s.owed.exchange.length) = l
  induction l generalizing s with
  | nil => rfl
  | cons i rest ih => rw [List.foldl_cons, ih]; simp

end

/-! `takeAllHandedOn` at the service port. -/

section

variable (s : State) 

@[simp] theorem State.transaction_takeAllHandedOn : (s.takeAllHandedOn).port.transaction = s.port.transaction := by
  unfold State.takeAllHandedOn
  generalize List.range (2 * s.owed.exchange.length) = l
  induction l generalizing s with
  | nil => rfl
  | cons i rest ih => rw [List.foldl_cons, ih]; simp
@[simp] theorem State.response_takeAllHandedOn : (s.takeAllHandedOn).port.response = s.port.response := by
  unfold State.takeAllHandedOn
  generalize List.range (2 * s.owed.exchange.length) = l
  induction l generalizing s with
  | nil => rfl
  | cons i rest ih => rw [List.foldl_cons, ih]; simp
@[simp] theorem State.work_takeAllHandedOn : (s.takeAllHandedOn).port.work = s.port.work := by
  unfold State.takeAllHandedOn
  generalize List.range (2 * s.owed.exchange.length) = l
  induction l generalizing s with
  | nil => rfl
  | cons i rest ih => rw [List.foldl_cons, ih]; simp
@[simp] theorem State.block_takeAllHandedOn : (s.takeAllHandedOn).port.block = s.port.block := by
  unfold State.takeAllHandedOn
  generalize List.range (2 * s.owed.exchange.length) = l
  induction l generalizing s with
  | nil => rfl
  | cons i rest ih => rw [List.foldl_cons, ih]; simp

end

/-! `endPulse` changes only out. -/

section

variable (s : State) (line : Fin 8)

@[simp] theorem State.member_endPulse : (s.endPulse line).member = s.member := by
  unfold State.endPulse; split
  · split <;> rfl
  · rfl
@[simp] theorem State.line_endPulse : (s.endPulse line).line = s.line := by
  unfold State.endPulse; split
  · split <;> rfl
  · rfl
@[simp] theorem State.cont_endPulse : (s.endPulse line).cont = s.cont := by
  unfold State.endPulse; split
  · split <;> rfl
  · rfl
@[simp] theorem State.clock_endPulse : (s.endPulse line).clock = s.clock := by
  unfold State.endPulse; split
  · split <;> rfl
  · rfl
@[simp] theorem State.sync_endPulse : (s.endPulse line).sync = s.sync := by
  unfold State.endPulse; split
  · split <;> rfl
  · rfl
@[simp] theorem State.sched_endPulse : (s.endPulse line).sched = s.sched := by
  unfold State.endPulse; split
  · split <;> rfl
  · rfl
@[simp] theorem State.exch_endPulse : (s.endPulse line).exch = s.exch := by
  unfold State.endPulse; split
  · split <;> rfl
  · rfl
@[simp] theorem State.cap_endPulse : (s.endPulse line).cap = s.cap := by
  unfold State.endPulse; split
  · split <;> rfl
  · rfl
@[simp] theorem State.port_endPulse : (s.endPulse line).port = s.port := by
  unfold State.endPulse; split
  · split <;> rfl
  · rfl
@[simp] theorem State.cfg_endPulse : (s.endPulse line).cfg = s.cfg := by
  unfold State.endPulse; split
  · split <;> rfl
  · rfl
@[simp] theorem State.pins_endPulse : (s.endPulse line).pins = s.pins := by
  unfold State.endPulse; split
  · split <;> rfl
  · rfl
@[simp] theorem State.owed_endPulse : (s.endPulse line).owed = s.owed := by
  unfold State.endPulse; split
  · split <;> rfl
  · rfl
@[simp] theorem State.pending_endPulse : (s.endPulse line).pending = s.pending := by
  unfold State.endPulse; split
  · split <;> rfl
  · rfl

end

/-! ### The stages of a tick (R36, R42, R104, R125, R150, R172) -/

/-! `tickClock` changes only clock. -/

section

variable (s : State) 

@[simp] theorem State.member_tickClock : (s.tickClock).member = s.member := rfl
@[simp] theorem State.line_tickClock : (s.tickClock).line = s.line := rfl
@[simp] theorem State.cont_tickClock : (s.tickClock).cont = s.cont := rfl
@[simp] theorem State.sync_tickClock : (s.tickClock).sync = s.sync := rfl
@[simp] theorem State.sched_tickClock : (s.tickClock).sched = s.sched := rfl
@[simp] theorem State.out_tickClock : (s.tickClock).out = s.out := rfl
@[simp] theorem State.exch_tickClock : (s.tickClock).exch = s.exch := rfl
@[simp] theorem State.cap_tickClock : (s.tickClock).cap = s.cap := rfl
@[simp] theorem State.port_tickClock : (s.tickClock).port = s.port := rfl
@[simp] theorem State.cfg_tickClock : (s.tickClock).cfg = s.cfg := rfl
@[simp] theorem State.pins_tickClock : (s.tickClock).pins = s.pins := rfl
@[simp] theorem State.owed_tickClock : (s.tickClock).owed = s.owed := rfl
@[simp] theorem State.pending_tickClock : (s.tickClock).pending = s.pending := rfl

end

/-! `tickRound` changes only owed. -/

section

variable (s : State) (c : Time)

@[simp] theorem State.member_tickRound : (s.tickRound c).member = s.member := rfl
@[simp] theorem State.line_tickRound : (s.tickRound c).line = s.line := rfl
@[simp] theorem State.cont_tickRound : (s.tickRound c).cont = s.cont := rfl
@[simp] theorem State.clock_tickRound : (s.tickRound c).clock = s.clock := rfl
@[simp] theorem State.sync_tickRound : (s.tickRound c).sync = s.sync := rfl
@[simp] theorem State.sched_tickRound : (s.tickRound c).sched = s.sched := rfl
@[simp] theorem State.out_tickRound : (s.tickRound c).out = s.out := rfl
@[simp] theorem State.exch_tickRound : (s.tickRound c).exch = s.exch := rfl
@[simp] theorem State.cap_tickRound : (s.tickRound c).cap = s.cap := rfl
@[simp] theorem State.port_tickRound : (s.tickRound c).port = s.port := rfl
@[simp] theorem State.cfg_tickRound : (s.tickRound c).cfg = s.cfg := rfl
@[simp] theorem State.pins_tickRound : (s.tickRound c).pins = s.pins := rfl
@[simp] theorem State.pending_tickRound : (s.tickRound c).pending = s.pending := rfl

end

/-! `tickMember` changes only out, owed. -/

section

variable (s : State) (c : Time)

@[simp] theorem State.member_tickMember : (s.tickMember c).member = s.member := by unfold State.tickMember; split <;> rfl
@[simp] theorem State.line_tickMember : (s.tickMember c).line = s.line := by unfold State.tickMember; split <;> rfl
@[simp] theorem State.cont_tickMember : (s.tickMember c).cont = s.cont := by unfold State.tickMember; split <;> rfl
@[simp] theorem State.clock_tickMember : (s.tickMember c).clock = s.clock := by unfold State.tickMember; split <;> rfl
@[simp] theorem State.sync_tickMember : (s.tickMember c).sync = s.sync := by unfold State.tickMember; split <;> rfl
@[simp] theorem State.sched_tickMember : (s.tickMember c).sched = s.sched := by unfold State.tickMember; split <;> rfl
@[simp] theorem State.exch_tickMember : (s.tickMember c).exch = s.exch := by unfold State.tickMember; split <;> rfl
@[simp] theorem State.cap_tickMember : (s.tickMember c).cap = s.cap := by unfold State.tickMember; split <;> rfl
@[simp] theorem State.port_tickMember : (s.tickMember c).port = s.port := by unfold State.tickMember; split <;> rfl
@[simp] theorem State.cfg_tickMember : (s.tickMember c).cfg = s.cfg := by unfold State.tickMember; split <;> rfl
@[simp] theorem State.pins_tickMember : (s.tickMember c).pins = s.pins := by unfold State.tickMember; split <;> rfl
@[simp] theorem State.pending_tickMember : (s.tickMember c).pending = s.pending := by unfold State.tickMember; split <;> rfl

end

/-! `tickInputs` changes only pins, cap. -/

section

variable (s : State) (levels : BitVec 8)

@[simp] theorem State.member_tickInputs : (s.tickInputs levels).member = s.member := rfl
@[simp] theorem State.line_tickInputs : (s.tickInputs levels).line = s.line := rfl
@[simp] theorem State.cont_tickInputs : (s.tickInputs levels).cont = s.cont := rfl
@[simp] theorem State.clock_tickInputs : (s.tickInputs levels).clock = s.clock := rfl
@[simp] theorem State.sync_tickInputs : (s.tickInputs levels).sync = s.sync := rfl
@[simp] theorem State.sched_tickInputs : (s.tickInputs levels).sched = s.sched := rfl
@[simp] theorem State.out_tickInputs : (s.tickInputs levels).out = s.out := rfl
@[simp] theorem State.exch_tickInputs : (s.tickInputs levels).exch = s.exch := rfl
@[simp] theorem State.port_tickInputs : (s.tickInputs levels).port = s.port := rfl
@[simp] theorem State.cfg_tickInputs : (s.tickInputs levels).cfg = s.cfg := rfl
@[simp] theorem State.owed_tickInputs : (s.tickInputs levels).owed = s.owed := rfl
@[simp] theorem State.pending_tickInputs : (s.tickInputs levels).pending = s.pending := rfl

end

/-! `tickPort` changes only port. -/

section

variable (s : State) 

@[simp] theorem State.member_tickPort : (s.tickPort).member = s.member := by unfold State.tickPort; split <;> rfl
@[simp] theorem State.line_tickPort : (s.tickPort).line = s.line := by unfold State.tickPort; split <;> rfl
@[simp] theorem State.cont_tickPort : (s.tickPort).cont = s.cont := by unfold State.tickPort; split <;> rfl
@[simp] theorem State.clock_tickPort : (s.tickPort).clock = s.clock := by unfold State.tickPort; split <;> rfl
@[simp] theorem State.sync_tickPort : (s.tickPort).sync = s.sync := by unfold State.tickPort; split <;> rfl
@[simp] theorem State.sched_tickPort : (s.tickPort).sched = s.sched := by unfold State.tickPort; split <;> rfl
@[simp] theorem State.out_tickPort : (s.tickPort).out = s.out := by unfold State.tickPort; split <;> rfl
@[simp] theorem State.exch_tickPort : (s.tickPort).exch = s.exch := by unfold State.tickPort; split <;> rfl
@[simp] theorem State.cap_tickPort : (s.tickPort).cap = s.cap := by unfold State.tickPort; split <;> rfl
@[simp] theorem State.cfg_tickPort : (s.tickPort).cfg = s.cfg := by unfold State.tickPort; split <;> rfl
@[simp] theorem State.pins_tickPort : (s.tickPort).pins = s.pins := by unfold State.tickPort; split <;> rfl
@[simp] theorem State.owed_tickPort : (s.tickPort).owed = s.owed := by unfold State.tickPort; split <;> rfl
@[simp] theorem State.pending_tickPort : (s.tickPort).pending = s.pending := by unfold State.tickPort; split <;> rfl

end

/-! ### What a tick takes first of the last one (log 1)

No event of time touches the work of the service port. -/

@[simp] theorem State.work_fireDue (s : State) (c : Time) : (s.fireDue c).port.work = s.port.work := by
  unfold State.fireDue; dsimp only
  suffices ∀ (l : List Entry) (s1 : State), (l.foldl (fun s e => s.fire e none) s1).port.work = s1.port.work from this _ _
  intro l
  induction l with
  | nil => intro s1; rfl
  | cons e rest ih => intro s1; rw [List.foldl_cons, ih]; simp
@[simp] theorem State.work_fireOwed (s : State)  : (s.fireOwed).port.work = s.port.work := by
  unfold State.fireOwed; split
  · rfl
  · split <;> simp
@[simp] theorem State.work_boundaryOwed (s : State) (turn : LineTurn) : (s.boundaryOwed turn).port.work = s.port.work := by
  unfold State.boundaryOwed State.boundary; split <;> simp
@[simp] theorem State.work_reportNotSent (s : State) (earlier : Nat) (kind : FrameKind) (n : Fin 16) : (s.reportNotSent earlier kind n).port.work = s.port.work := by
  unfold State.reportNotSent; split
  · simp
  · split <;> simp
@[simp] theorem State.work_publish (s : State) (earlier : Nat) (n : Fin 16) (x : ReflexEntry) (stamp : Time) : (s.publish earlier n x stamp).port.work = s.port.work := by
  have h := s.port_enqueue (.fresh (.event x.selector x.input x.edge stamp s.cap.eventCounter) false (some n))
  unfold State.publish; split <;> (rename_i h'; rw [h'] at h; simp_all)
@[simp] theorem State.work_reflexPost (s : State) (earlier : Nat) (n : Fin 16) (x : ReflexEntry) (stamp : Time) : (s.reflexPost earlier n x stamp).port.work = s.port.work := by
  have h := s.port_enqueue (.fresh (.action (s.reflexAction x stamp)) true (some n))
  unfold State.reflexPost; split <;> (rename_i h'; rw [h'] at h; simp_all)
@[simp] theorem State.work_reflexLocal (s : State) (atOnce : Bool) (x : ReflexEntry) (stamp : Time) : (s.reflexLocal atOnce x stamp).port.work = s.port.work := by unfold State.reflexLocal; dsimp only; split <;> simp
@[simp] theorem State.work_reflex (s : State) (earlier : Nat) (atOnce : Bool) (n : Fin 16) (input : Fin 8) (edge : EdgeDir) (stamp : Time) : (s.reflex earlier atOnce n input edge stamp).port.work = s.port.work := by
  unfold State.reflex; dsimp only; split
  · split <;> simp
  · rfl
@[simp] theorem State.work_runReflexes (s : State) (atOnce : Bool) (input : Fin 8) (edge : EdgeDir) (stamp : Time) : (s.runReflexes atOnce input edge stamp).port.work = s.port.work := by
  unfold State.runReflexes
  generalize s.owed.insertions.length = earlier
  induction List.finRange 16 generalizing s with
  | nil => rfl
  | cons i rest ih => rw [List.foldl_cons, ih]; simp
@[simp] theorem State.work_takeEdge (s : State) (atOnce : Bool) (input : Fin 8) (edge : EdgeDir) (first : SampleRecord) : (s.takeEdge atOnce input edge first).port.work = s.port.work := by
  unfold State.takeEdge; dsimp only; split
  · split <;> simp
  · rfl
@[simp] theorem State.work_qualify (s : State) (atOnce : Bool) (input : Fin 8) : (s.qualify atOnce input).port.work = s.port.work := by
  unfold State.qualify; split
  · rfl
  · dsimp only; split
    · rfl
    · split <;> simp
@[simp] theorem State.work_foundOwed (s : State)  : (s.foundOwed).port.work = s.port.work := by unfold State.foundOwed State.found; split <;> simp

/-- The row of a command that may be executed executes it. -/
theorem State.exec_row (s : State) (c : Command) (n : Nat) (h : s.port.work = .current c n) (least : 1 ≤ n) (most : n ≤ 16) :
    exec c.row s = .next (s.run c) := by
  have ready : s.ready = some c := by simp [State.ready, h, least, Config.executionTicks, most]
  cases c <;> simp only [Command.row, exec, execNop, execStatus, execConfigure, execStart, execStop, execPost, execAmend, execCancel,
    execFind, execReadLog, execReadReports, execReadPeers, execSnapshot, execDrive, ready] <;> rfl

/-- A fold of rows, each with a next state. -/
theorem State.foldl_afterRow {α : Type} (row : α → Instr) (next : State → α → State)
    (h : ∀ s x, exec (row x) s = .next (next s x)) (l : List α) (s : State) :
    (l.map row).foldl State.afterRow s = l.foldl next s := by
  induction l generalizing s with
  | nil => rfl
  | cons x rest ih => rw [List.map_cons, List.foldl_cons, List.foldl_cons, ih]; simp [State.afterRow, h]

/-- What `settle` does is what the rows of the events left over do, in their order (log 1). -/
theorem State.settle_eq_afterLeft (s : State) (wait : s.WaitOk) : s.settle = s.afterLeft := by
  unfold State.afterLeft State.leftRows
  simp only [List.foldl_append, List.foldl_cons, List.foldl_nil]
  rw [State.foldl_afterRow (fun _ : HandedOver => .edgeQualified .insertion) (fun s _ => s.insertNext) (fun _ _ => rfl),
    State.foldl_afterRow (fun _ : Nat => .frameCompletion .next) (fun s _ => s.takeHandedOn) (fun _ _ => rfl),
    State.foldl_afterRow .pulseEnd (fun s l => s.endPulse l) (fun _ _ => rfl),
    State.foldl_afterRow (fun i => .edgeQualified (.whole i)) (fun s i => s.qualify true i) (fun _ _ => rfl)]
  have work : ∀ {α : Type} (f : State → α → State) (l : List α) (s : State), (∀ s x, (f s x).port.work = s.port.work) →
      (l.foldl f s).port.work = s.port.work := by
    intro α f l
    induction l with
    | nil => intro s _; rfl
    | cons x rest ih => intro s h; rw [List.foldl_cons, ih _ h, h]
  simp only [State.afterRow, exec, execFiring, execRoundBoundary, execListenWindowExpiry]
  unfold State.settle
  dsimp only
  have taken : (List.range (2 * s.owed.exchange.length)).foldl (fun s _ => s.takeHandedOn)
      (s.owed.insertions.foldl (fun s _ => s.insertNext) s) = s.insertHandedOver.takeAllHandedOn := by
    unfold State.takeAllHandedOn; rw [State.exchange_insertHandedOver]; rfl
  rw [taken]
  generalize hu : ((List.finRange 8).foldl (fun s i => s.qualify true i)
    (((List.finRange 8).foldl (fun s l => s.endPulse l)
      s.insertHandedOver.takeAllHandedOn.takeHandedVerdict).fireOwed.boundaryOwed .first)).foundOwed = u
  have hw : u.port.work = s.port.work := by
    rw [← hu, State.work_foundOwed, work _ _ _ (by simp), State.work_boundaryOwed, State.work_fireOwed, work _ _ _ (by simp)]
    simp
  unfold State.runDue
  rw [hw]
  cases h : s.port.work with
  | idle => rfl
  | refused r => rfl
  | current c n =>
    have wait : n ≤ 16 := wait n (by simp [State.waited, h])
    by_cases hn : n = 16
    · have e := u.exec_row c n (by rw [hw, h]) (by omega) (by omega)
      simp [Config.executionTicks, hn, State.afterRow, e]
    · have : n < 16 := by omega
      simp [Config.executionTicks, hn, Nat.not_le.2 this]

end Sys2Proof.Machine
end

