-- ==== Sys2Proof/Tests/Slice0.lean ====
section
/-! SUPPORT. Tests: ill-formed commands are refused, the spec's examples come out as it says, one small step per command, and a
witness for the premises of every obligation that has premises. -/

namespace Sys2Proof.Tests

set_option Elab.async false

open Sys2Proof Sys2Proof.Machine

/-! ### Helpers: a station 5 with k = 12 in each of its states -/

/-- The state after a command; the state itself if the command stopped. -/
def after (c : Instr) (s : State) : State :=
  match exec c s with
  | .next t => t
  | .fault _ | .refused _ => s

/-- Station 5 of chapter 12, lines 0–3 enabled, window 2 (0500h, FF00h), input 2 RISING with filter length 4. -/
def block : ConfigBlock :=
  { ConfigBlock.blank with
    number := 5, k := 12, linkDelay := 3, syncBound := 8, maxStep := 40, outlierBound := 500, listenRounds := 2, lostLimit := 3,
    splitLimit := 3, enableMask := 0x0F, defaults := 0x04, resync := 0x02,
    inputs := Vector.ofFn fun i => { mode := if i = 2 then .rising else .off, filter := 4 }
    windows := Vector.ofFn fun i => if i = 0 then { value := 0x0500, mask := 0xFF00, enabled := true }
      else { value := 0, mask := 0, enabled := false } }

/-- The firing of a tick is owed. -/
def firingFrom (c : Time) (s : State) : State := s.withOwed { s.owed with fireFrom := some c }

/-- READY with the block held. -/
def ready : State :=
  (State.reset.withMember { State.reset.member with state := .ready }).withPort { State.reset.port with block := some block }

/-- LISTEN, right after START. -/
def listening : State := ready.startFromReady block

/-- The time placed in the clock of a synced station. -/
def timed (s : State) (state : StationState) (now : Time) : State :=
  (s.withMember { s.member with state := state }).withClock { s.clock with cluster := some now, listen := none }

/-- JOINING and MEMBER at a cluster time. -/
def joining (now : Time) : State := timed listening .joining now
def member (now : Time) : State := timed listening .member now

/-- STOPPED after a START. -/
def stopped : State := listening.enterStopped .stop

/-- A current command one tick after SEL rise. -/
def commanded (c : Command) (s : State) : State := s.withPort { s.port with work := .current c 1 }

/-- The receiver in WAIT, idle. -/
def idle (s : State) : State :=
  (s.withLine { s.line with receiver := .wait }).withCont { s.cont with idle := true, slot := none }

/-- The receiver in a frame whose start bit has been taken. -/
def receiving (s : State) : State :=
  s.withLine { s.line with
    receiver := .receive
    sof := some { localStamp := 100, clusterStamp := s.clock.cluster }
    frame := some .started }

/-- The samples of a frame that follow its first start bit. -/
def samplesOf (sender : Station) (time : Time) (p : Payload) : List Bool := (bitsOfFrame (frameBytes sender time p)).drop 1

/-- A frame of the queue in transmission. -/
def sending (p : Payload) (s : State) : State :=
  (s.withLine { s.line with receiver := .send, sending := frameBytes 5 0 p }).withCont
    { s.cont with queue := [{ TxRecord.fresh p true none with inTransmission := true }] }

/-- A one-shot SET of line 1. -/
def setLine1 (due : Time) : ActionFields :=
  { selector := 0xFFFF, serial := 0x10, due := due, line := 1, kind := .set, notify := true, width := none, rep := none }

/-- An entry for it. -/
def entry1 (due : Time) : Entry := (setLine1 due).entry 5 .localCommand

/-- An action queue. -/
def queued (entries : List Entry) (s : State) : State := s.withSched { s.sched with queue := entries }

/-- A fresh MEMBER record with an offset. -/
def heard (offset : Int) : PeerRecord :=
  { state := .absent, fresh := true, missed := 0,
    beacon := some { offset := BitVec.ofInt 32 offset, body := { member := true, alone := true, count := 1, bitmap := 0 } } }

/-- A boundary is owed, and the record of a peer is as given. -/
def boundaryWith (peer : Station) (r : PeerRecord) (s : State) : State :=
  (s.withOwed { s.owed with boundary := true }).withSync { s.sync with peers := s.sync.peers.set peer r }

/-- An input whose run has reached its filter length. -/
def qualifying (input : Fin 8) (s : State) : State :=
  s.withCap { s.cap with filters := some (Vector.ofFn fun i => if i = input
    then { level := false, run := 4, first := some { ticks := 7, cluster := s.clock.cluster } }
    else { level := false, run := 0, first := none }) }

/-! ### Ill-formed commands are refused -/

theorem test_wellFormed_refuses_long_frame :
    ∀ event ∈ [FrameEvent.whole (List.replicate 391 true), .handOver (List.replicate 391 true)],
      Instr.wellFormed (.frameCompletion event) = false := by decide +kernel
theorem test_wellFormed_takes_longest_frame :
    ∀ event ∈ [FrameEvent.whole (List.replicate 390 true), .handOver (List.replicate 390 true), .next],
      Instr.wellFormed (.frameCompletion event) = true := by decide +kernel
theorem test_wellFormed_refuses_late_bit : Instr.wellFormed (.readbackMismatch 200) = false := by decide
theorem test_wellFormed_takes_last_bit : Instr.wellFormed (.readbackMismatch 199) = true := by decide
theorem test_wellFormed_refuses_split_byte : Instr.wellFormed (.transactionEnd [true] []) = false
    ∧ Instr.wellFormed (.transactionEnd [] (List.replicate 8 true)) = false := by decide
theorem test_wellFormed_takes_cut_byte : Instr.wellFormed (.transactionEnd (serialBits 0x55) (List.replicate 7 true)) = true := by decide

/-! ### The spec's examples -/

/-- The check value of the CRC-16 of R5 over "123456789". -/
theorem test_crc_check_value : crc16 [0x31, 0x32, 0x33, 0x34, 0x35, 0x36, 0x37, 0x38, 0x39] = 0x29B1 := by decide +kernel

/-- Chapter 11: a STATUS packet is 01h, 00h, FFh, and a NOP packet 00h, 00h, 00h. -/
theorem test_packet_examples :
    judgeEnvelope [0x01, 0x00, 0xFF] = .ok .status ∧ judgeEnvelope [0x00, 0x00, 0x00] = .ok .nop := ⟨rfl, rfl⟩

/-- The table of R58. -/
theorem test_correction_table :
    rawCorrection [] = 0 ∧ rawCorrection [31] = 15 ∧ rawCorrection [16, 15] = 15 ∧ rawCorrection [12, -7, 3] = 1
    ∧ rawCorrection [-90, -94, -101, -88] = -90 ∧ appliedCorrection 40 (-90) = -40 := by decide

/-- The table of R62. -/
theorem test_split_table :
    splitRound 9 [5] [2, 11] = true ∧ splitRound 2 [11] [5, 9] = false ∧ splitRound 9 [] [2] = true
    ∧ splitRound 2 [] [9] = false ∧ splitRound 5 [2, 9] [11] = false := by decide

/-- Section 2.6: the ranks in rounds 19 and 22. -/
theorem test_contention_values :
    contentionValue 0 2 19 = 15 ∧ contentionValue 0 5 19 = 2 ∧ contentionValue 0 9 19 = 6 ∧ contentionValue 0 5 22 = 15
    ∧ contentionValue 2 9 22 = 35 := by decide

/-- Section 8.9: selectors at station 5. -/
theorem test_windows :
    (member 0).passes 0xFF05 = true ∧ (member 0).passes 0xFFFF = true ∧ (member 0).passes 0x0512 = true
    ∧ (member 0).passes 0x0634 = false ∧ (member 0).passes 0x0700 = false := by decide +kernel

/-- The adoption of chapter 3 at 250 kbit/s: 00023A10h + 3 + 478 = 00023BF1h. -/
theorem test_adoption_value :
    ((listening.withClock { listening.clock with ticks := 578 }).adopt 0x00023A10
      (some { localStamp := 100, clusterStamp := none })).clock.cluster = some 0x00023BF1 := by decide +kernel

/-- Section 6.12, step 4: a local POST that is 480 late skips one occurrence and is next due at 00031220h with count 3. -/
theorem test_late_repeat :
    let e := { entry1 0x00031020 with rep := some { period := 0x100, count := 5 } }
    let t := (queued [] (member 0x00031200)).fire e (some 480)
    t.sched.queue.map (fun x => (x.due, x.rep)) = [(0x00031220, some { period := 0x100, count := 3 })]
    ∧ (t.port.reports.drop 1).head?.map (·.detail) = some (.late e.id 480 1) := by decide +kernel

/-- Section 7.7, steps 9 and 10: line 3 completes its pulse, HOLD and DEFAULT, then every line at its default. -/
theorem test_lines_through_split :
    let lines : Vector OutLine 8 := Vector.ofFn fun i =>
      if i = 0 then .driven true none else if i = 1 then .driven false none else if i = 2 then .driven false none
      else if i = 3 then .driven true (some { endTime := 0x000402F4, id := { origin := 5, serial := 0x32 }, overdue := false,
                                              reached := false })
      else .released
    let s := ((member 0x00040200).withOut { lines := lines }).resyncLines
    s.out.lines.toList.take 4 = [.driven true none, .driven false none, .driven false none, .driven false none]
    ∧ s.defaultLines.out.lines.toList.take 4 = [.driven false none, .driven false none, .driven true none, .driven false none]
    := by decide +kernel

/-- Section 7.8: a pulse whose end time is before its late firing is overdue, and one after is not. -/
theorem test_late_pulse :
    let id : ActionId := { origin := 5, serial := 1 }
    (OutLine.driven false none).fired false 0x00041030 .pulse 0x20 id 0x00041000
      = .driven true (some { endTime := 0x00041020, id := id, overdue := true, reached := false })
    ∧ (OutLine.driven false none).fired false 0x00041030 .pulse 0x40 id 0x00041000
      = .driven true (some { endTime := 0x00041040, id := id, overdue := false, reached := false }) := by decide +kernel

/-- Section 10.7: with 30 reports held, two more PEER reports, ALONE and LINE_ERRORS leave 32 with a lost count of 3. -/
theorem test_report_overflow :
    let r (d : ReportDetail) : Report := { detail := d, stamp := 1, unsynced := false }
    let q := (List.replicate 30 (r (.alone true)))
    let q' := [r (.alone true), r (.alone true), r (.alone false), r (.lineErrors 2)].foldl arrive q
    q'.length = 32 ∧ q'.getLast? = some (r (.overflow 3)) := by decide +kernel

/-! ### One small step per command -/

theorem test_hardwareReset : after .hardwareReset (member 7) = State.reset := by decide +kernel
theorem test_tick_member :
    (after (.tick 0) (member 0xFFF)).clock.cluster = some 0x1000 ∧ (after (.tick 0) (member 0xFFF)).owed.boundary = true := by
  decide +kernel
theorem test_tick_slew :
    let s := (member 15).withClock { (member 15).clock with slew := 2, spacing := 15 }
    (after (.tick 0) s).clock.cluster = some 17 ∧ (after (.tick 0) s).clock.slew = 1 := by decide +kernel
theorem test_roundBoundary :
    (after (.roundBoundary (.whole .last)) (boundaryWith 2 (heard 31) (member 0x1000))).clock.slew = 15 := by decide +kernel
theorem test_listenWindowExpiry :
    (after .listenWindowExpiry (listening.withClock { listening.clock with listen := some 9472 })).member.state = .member := by
  decide +kernel
theorem test_firing :
    let s := (queued [entry1 100] (member 100))|> firingFrom 99
    (after .firing s).out.lines[1] = .driven true none ∧ (after .firing s).sched.queue = [] := by decide +kernel
theorem test_pulseEnd :
    let edge : TrailingEdge := { endTime := 100, id := { origin := 5, serial := 0 }, overdue := false, reached := true }
    let s := (member 100).withOut { lines := Vector.ofFn fun i => if i = 1 then .driven true (some edge) else .released }
    (after (.pulseEnd 1) s).out.lines[1] = .driven false none := by decide +kernel
theorem test_edgeQualified :
    (after (.edgeQualified (.whole 2)) (qualifying 2 (member 0x60102))).cap.log.map (fun r => (r.sequence, r.body.stamp, r.body.synced))
      = [(0, 0x60102, true)] := by decide +kernel
theorem test_lineIdle : (after .lineIdle listening).line.receiver = .wait ∧ (after .lineIdle listening).cont.idle = true := by
  decide +kernel
theorem test_idleSlot :
    let s := idle (member 0x5000)
    let s' := s.withCont { s.cont with queue := [.fresh (.beacon none { member := true, alone := true, count := 1, bitmap := 0 })
      false none] }
    (after .idleSlot s').line.receiver = .send ∧ (after .idleSlot s').line.sending.length = 12 := by decide +kernel
theorem test_startOfFrame : (after .startOfFrame (idle (member 9))).line.sof
    = some { localStamp := 0, clusterStamp := some 9 } := by decide +kernel
theorem test_frameTruncated :
    let s := (receiving (member 9)).withLine { (receiving (member 9)).line with frame := some (.awaiting [0x22]) }
    (after .frameTruncated s).line.errors = 1 ∧ (after .frameTruncated s).line.receiver = .seek := by decide +kernel
theorem test_frameCompletion_inserts :
    (after (.frameCompletion (.whole (samplesOf 2 0 (.action (setLine1 100))))) (receiving (member 9))).sched.queue.map (·.id)
      = [{ origin := 2, serial := 0x10 }] := by decide +kernel
theorem test_frameCompletion_counts_errors :
    (after (.frameCompletion (.whole ((samplesOf 2 0 (.cancel 1 2)).set 25 true))) (receiving (member 9))).line.errors = 1 := by
  decide +kernel
theorem test_transmissionSuccess :
    let t := after .transmissionSuccess (sending (.action (setLine1 100)) (member 9))
    t.cont.queue = [] ∧ t.sched.queue.map (·.source) = [.selfDelivery] := by decide +kernel
theorem test_readbackMismatch :
    let t := after (.readbackMismatch 9) (sending (.cancel 1 2) (member 9))
    t.line.receiver = .seek ∧ t.cont.queue.map (fun r => (r.attempts, r.inTransmission)) = [(1, false)] := by decide +kernel
theorem test_lineStuck :
    (after .lineStuck (idle (member 9))).line.muted = true
    ∧ (after .lineStuck (idle (member 9))).port.reports.getLast?.map (·.detail) = some (.line .stuck) := by decide +kernel
theorem test_lineReleased :
    (after .lineReleased (((idle (member 9)).withLine { (idle (member 9)).line with muted := true }))).line.muted = false := by
  decide +kernel
theorem test_stuckRunEnd :
    (after .stuckRunEnd ((member 9).withLine { (member 9).line with receiver := .stuck })).line.receiver = .seek := by
  decide +kernel
theorem test_rejectedStartEdge :
    (after .rejectedStartEdge (receiving (member 9))).line.receiver = .wait
    ∧ (after .rejectedStartEdge (idle (member 9))).cont.idle = false := by decide +kernel
/-- R6, R14: a glitch after 4 bit times of a gap restarts the count of recessive and not the gap, which truncates the frame 7 later, be it
by samples or by the row; with no glitch, and in the gap after a character of the same samples, the count is the gap. -/
theorem test_glitch_between_characters :
    let s := (receiving (member 9)).withLine { (receiving (member 9)).line with frame := some (.awaiting [0x22]) }
    let gap (n : Nat) (u : State) := after (.frameCompletion (.whole (List.replicate n true))) u
    let counts (u : State) : Nat × Option Nat := (u.line.recessiveRun, u.line.frame.map (·.gap))
    let glitch := after .rejectedStartEdge (gap 4 s)
    counts (gap 4 s) = (4, some 4) ∧ counts glitch = (0, some 4) ∧ counts (gap 6 glitch) = (6, some 10)
    ∧ counts (gap 7 glitch) = (7, none) ∧ (gap 7 glitch).line.receiver = .seek ∧ counts (after .frameTruncated glitch) = (7, none)
    ∧ counts (gap 11 s) = (11, none) ∧ counts (after .frameTruncated s) = (11, none)
    ∧ counts (after (.frameCompletion (.whole (characterBits 8 ++ List.replicate 3 true))) glitch) = (3, some 3)
    ∧ (let part := after (.frameCompletion (.whole [false, true])) s
       after .rejectedStartEdge part = part) := by decide +kernel
theorem test_transactionBegin :
    (after .transactionBegin State.reset).port.transaction = some { busy := false, sdo := [0, 0, 0, 0] }
    ∧ (after .transactionBegin (commanded .nop State.reset)).port.transaction
      = some { busy := true, sdo := [0x00, 0x01, 0x00, 0xFF] } := by decide +kernel
/-- R168: 01h is seven levels low and then one high, in both directions, and 00h follows the response. -/
theorem test_serial_bit_order :
    receivedBytes [false, false, false, false, false, false, false, true, true] = [0x01]
    ∧ (List.range 17).map (Transaction.sdoLevel { busy := false, sdo := [0x01, 0x80] })
      = [false, false, false, false, false, false, false, true, true, false, false, false, false, false, false, false, false]
    := by decide +kernel
theorem test_transactionEnd :
    (after (.transactionEnd ([0x01, 0x00, 0xFF, 0x55].flatMap serialBits) [true, false]) (after .transactionBegin State.reset)).port.work = .current .status 0
    ∧ (after (.transactionEnd ([0x01, 0x00, 0xFE].flatMap serialBits) []) (after .transactionBegin State.reset)).port.work
      = .refused { command := 0x01, code := .badCheck, data := [] } := by decide +kernel
theorem test_nop : (after .nop (commanded .nop State.reset)).port.response = some { command := 0, code := .ok, data := [] } := by
  decide +kernel
theorem test_status :
    (after .status (commanded .status (member 0x13002))).port.response = some { command := 1, code := .ok, data :=
      [0x12, 0x3A, 0x05, 0x04, 0x05, 0x02, 0x30, 0x01, 0x00, 0x13, 0x00, 0x00, 0x00, 0x00, 0x00, 0x00, 0x01] } := by
  decide +kernel
/-- A block of CONFIGURE: station 5, 1000 kbit/s, k = 12, the rest as `block`, reflexes disabled. -/
def blockBytes : List Byte :=
  [5, 3, 12, 3, 8, 40] ++ halfBytes 500 ++ [2, 3, 3, 0, 0x0F, 0x04, 0x02, 1]
  ++ [0x04, 0x04, 0x14, 0x04, 0x04, 0x04, 0x04, 0x04]
  ++ [0x00, 0x05, 0x00, 0xFF, 1] ++ List.replicate 15 0 ++ List.replicate 128 0
theorem test_configure :
    configOf blockBytes = some { block with rate := .kbit1000 } ∧ configOf (blockBytes.set 2 21) = none
    ∧ (after .configure (commanded (.configure blockBytes) State.reset)).member.state = .ready := by decide +kernel
theorem test_start :
    (after .start (commanded .start ready)).member.state = .listen
    ∧ (after .start (commanded .start ready)).out.lines.toList.take 5
      = [.driven false none, .driven false none, .driven true none, .driven false none, .released] := by decide +kernel
theorem test_stop :
    (after .stop (commanded .stop (queued [entry1 50] (member 9)))).port.reports.map (·.detail)
      = [.state .ready .listen .start, .state .member .stopped .stop, .flushed 1 .stop] := by decide +kernel
theorem test_post_local :
    (after .post (commanded (.post 0 (setLine1 100)) (member 9))).sched.queue.map (·.due) = [100] := by decide +kernel
theorem test_post_bad_line :
    (after .post (commanded (.post 0 { setLine1 100 with line := 5 }) (member 9))).port.response
      = some { command := 0x10, code := .badLine, data := [] } := by decide +kernel
theorem test_amend :
    (after .amend (commanded (.amend 0 0 0x10 { period := 0x800, count := 2 }) (queued
      [{ entry1 100 with rep := some { period := 0x1000, count := 0 } }] (member 9)))).sched.queue.map (·.pendingRep)
      = [some { period := 0x800, count := 2 }] := by decide +kernel
theorem test_cancel :
    (after .cancel (commanded (.cancel 0 0 0x10) (queued [entry1 100] (member 9)))).sched.queue = [] := by decide +kernel
theorem test_find :
    (after .find (commanded (.find 5 0x10) (queued [entry1 100] (member 9)))).port.response.map (·.data.take 8)
      = some [1, 100, 0, 0, 0, 0x21, 0, 0] := by decide +kernel
theorem test_readLog :
    (after .readLog (commanded (.readLog 8) (after (.edgeQualified (.whole 2)) (qualifying 2 (member 0x60102))))).port.response
      = some { command := 0x20, code := .ok, data := [1, 0, 0, 0x45, 0x02, 0x02, 0x01, 0x06, 0x00, 0, 0] } := by decide +kernel
theorem test_readReports :
    (after .readReports (commanded (.readReports 1) (member 9))).port.response.map (·.data.take 10)
      = some [1, 0x01, 1, 0, 0, 0, 0, 1, 2, 0] := by decide +kernel
theorem test_readPeers :
    ((after .readPeers (commanded .readPeers (member 9))).port.response.map (·.data.length)) = some 160 := by decide +kernel
theorem test_snapshot :
    (after .snapshot (commanded .snapshot (member 9))).port.response = some { command := 0x23, code := .ok, data := [1, 0, 0] } := by
  decide +kernel
theorem test_drive :
    (after .drive (commanded (.drive 0 2) (member 9))).port.response.map (·.data.take 9) = some [3, 0, 0, 0, 0, 0, 0, 0, 1] := by
  decide +kernel
/-- R13: the dominant run of a mismatch goes on in RECEIVE and, after a START in STOPPED, in SEEK; in OFF none is counted. The
frame begins with the start bit at place 0, the header 85h, bit 0 first, and its stop bit at place 9. -/
theorem test_run_after_mismatch :
    let s := sending (.cancel 1 2) (member 9)
    let off := s.enterStopped .stop
    let seek := after .start (commanded .start off)
    let run (bit : Nat) (u : State) := (after (.readbackMismatch bit) u).line.dominantRun
    (bitsOfFrame s.line.sending).take 10 = [false, true, false, true, false, false, false, false, true, true]
    ∧ [run 1 s, run 3 s, run 8 s, run 9 s] = [2, 2, 5, 1] ∧ [run 1 seek, run 3 seek, run 8 seek, run 9 seek] = [2, 2, 5, 1]
    ∧ [run 1 off, run 8 off] = [0, 0] ∧ (after (.readbackMismatch 8) seek).line.receiver = .seek := by decide +kernel
/-- R188: the detail bytes of TX_ABANDONED, NOT_SENT and FLUSHED. -/
theorem test_frame_and_flush_details :
    let bytes (d : ReportDetail) : List Byte := (Report.bytes { detail := d, stamp := 0, unsynced := true }).drop 6
    let id : ActionId := { origin := 5, serial := 0x1234 }
    bytes (.txAbandoned .beacon .none) = [0x01, 0, 0, 0, 0, 0, 0, 0, 0, 0]
    ∧ bytes (.txAbandoned .action (.action id)) = [0x02, 5, 0x34, 0x12, 0, 0, 0, 0, 0, 0]
    ∧ bytes (.txAbandoned .event (.reflex 3 (some 0xABCD))) = [0x85, 3, 0xCD, 0xAB, 0, 0, 0, 0, 0, 0]
    ∧ bytes (.notSent .refuse (.action id)) = [0x06, 5, 0x34, 0x12, 0, 0, 0, 0, 0, 0]
    ∧ bytes (.notSent .event (.reflex 3 none)) = [0x85, 3, 0, 0, 0, 0, 0, 0, 0, 0]
    ∧ bytes (.flushed 32 .duplicate) = [32, 7, 0, 0, 0, 0, 0, 0, 0, 0] := by decide +kernel
/-- A frame in SEND at STOP completes, and the receiver then goes to OFF (R17). -/
theorem test_stop_in_send :
    let s := sending (.cancel 1 2) (member 9)
    let t := after .stop (commanded .stop s)
    t.line.receiver = .send ∧ t.cont.queue.map (·.isVoid) = [true]
    ∧ (after .transmissionSuccess t).line.receiver = .off ∧ (after .transmissionSuccess t).cont.queue = [] := by decide +kernel

/-! ### Witnesses: for each obligation with premises, a state and operands that meet them together, clause by clause -/

/-- A command current since `n` ticks. -/
def current (n : Nat) (c : Command) (s : State) : State := s.withPort { s.port with work := .current c n }

/-- A frame received so far up to its first start bit. -/
def begun : PartialFrame := .started

/-- The body of a MEMBER beacon. -/
def memberBody : BeaconBody := { member := true, alone := true, count := 1, bitmap := 0 }

/-- A clock with a remainder at the tick before an adjustment. -/
def slewing (slew : Int) : State := (member 15).withClock { (member 15).clock with slew := slew, spacing := 15 }

/-- The transmit queue is as given. -/
def waiting (queue : List TxRecord) (s : State) : State := s.withCont { s.cont with queue := queue }

/-- Own beacon, waiting. -/
def ownRecord : TxRecord := .fresh (.beacon none memberBody) false none

/-- A full action queue. -/
def fullQueue : List Entry := (List.range 32).map fun i => { entry1 100 with id := { origin := 2, serial := BitVec.ofNat 16 i } }

/-- A full log. -/
def fullLog (s : State) : State :=
  s.withCap { s.cap with log := (List.range 64).map fun i => { sequence := BitVec.ofNat 16 i, body := s.softRecord } }

/-- A repeating entry. -/
def repeating (due period : Time) (count : Byte) : Entry := { entry1 due with rep := some { period := period, count := count } }

/-- Line 1 driven with a pending trailing edge. -/
def pulsing (endTime : Time) (s : State) : State :=
  s.withOut { lines := s.out.lines.set 1 (.driven true (some
    { endTime := endTime, id := { origin := 5, serial := 0 }, overdue := false, reached := false })) }

/-- A reflex entry on input 2, RISE. -/
def publishing : ReflexEntry :=
  { enabled := true, input := 2, edge := .rise, effect := .publish, selector := 0x0600, delay := 0, line := 0, kind := .set,
    width := 0 }

/-- A station whose reflex entry 0 publishes and whose entry 1 acts on line 0 after 1000 ticks. -/
def reflexive (s : State) : State :=
  s.withCfg (some { block with
    reflexes := (block.reflexes.set 0 publishing).set 1 { publishing with effect := .toSelf, delay := 1000 } })

theorem test_premises_StepRunsFrontCommand : (State.reset.withPending [.nop, .start]).pending = .nop :: [.start] := rfl
theorem test_premises_QueueDiscipline : State.reset.pending = [] := rfl
theorem test_premises_UnmetEventsChangeNothing :
    let s := State.reset
    let u := idle (member 9)
    u.cont.idle = true ∧ u.line.receiver ≠ .receive ∧ u.line.receiver ≠ .send ∧ u.line.receiver ≠ .stuck ∧ u.line.muted = false
    ∧ listening.line.receiver ≠ .wait ∧ (after .lineStuck u).line.receiver = .stuck
    ∧ (after .transactionBegin u).port.transaction ≠ none ∧
    s.owed.boundary = false ∧ s.owed.verdict = none ∧ s.owed.insertions = [] ∧ s.owed.exchange = [] ∧ s.member.state ≠ .joining
    ∧ s.member.state ≠ .member ∧ State.samplesOf (.whole []) [] ∧ State.samplesOf (.handOver []) [] ∧
    s.member.state ≠ .listen ∧ s.owed.fireFrom = none ∧ (s.out.lines[(7 : Fin 8)]).hasEdge = false
    ∧ s.cap.filters = none ∧ s.cont.idle = false ∧ s.line.receiver = .off ∧ s.port.transaction = none ∧ s.port.work = .idle := by
  decide +kernel
/-- The conditions on a row that come about only in part: a window that has not run out, a firing owed outside MEMBER, an edge not
reached, a run one sample short, a character in progress, a bit sent dominant, a muted line in STUCK, another command's row and a command
before its first tick. -/
theorem test_premises_UnmetEvents_in_part :
    let short := (qualifying 2 (member 9)).withCap { (member 9).cap with
      filters := some (Vector.replicate 8 { level := false, run := 3, first := some { ticks := 7, cluster := none } }) }
    let send := sending (.cancel 1 2) (member 9)
    (listening.member.state = .listen ∧ listening.clock.listen = some 0 ∧ 0 < listening.listenWindow)
    ∧ ((firingFrom 8 (joining 9)).owed.fireFrom = some 8 ∧ (joining 9).member.state ≠ .member)
    ∧ after (.pulseEnd 1) (pulsing 101 (member 100)) = pulsing 101 (member 100)
    ∧ (short.config.inputs[(2 : Fin 8)]).filter = 4 ∧ after (.edgeQualified (.whole 2)) short = short
    ∧ (receiving (member 9)).line.receiver = .receive ∧ begun.bits ≠ []
    ∧ (bitsOfFrame send.line.sending)[0]? = some false ∧ after (.readbackMismatch 0) send = send
    ∧ ((after .lineStuck (idle (member 9))).line.receiver = .stuck ∧ (after .lineStuck (idle (member 9))).line.muted = true)
    ∧ Command.row .nop ≠ .status ∧ after .status (commanded .nop (member 9)) = commanded .nop (member 9)
    ∧ after .nop (current 0 .nop (member 9)) = current 0 .nop (member 9) := by decide +kernel
/-- R95: a placement at an equal due time stands behind, and the order of equal due times is that of the sequences, over the wrap of the
counter too. -/
theorem test_premises_order_of_equal_due_times :
    let placed (n : BitVec 32) : Entry := { entry1 100 with id := { origin := 2, serial := n.truncate 16 }, sequence := n }
    let s := (member 9).withSched { queue := [placed 0xFFFFFFFF, placed 0, entry1 101], counter := 0 }
    (∀ x ∈ [placed 1], (x.due - 9).toNat ≤ ((placed 2).due - 9).toNat) ∧ ((placed 2).due - 9).toNat < ((entry1 101).due - 9).toNat
    ∧ placeIn 9 (placed 2) [placed 1, entry1 101] = [placed 1, placed 2, entry1 101]
    ∧ s.PhaseOk ∧ s.ActionsOk ∧ s.owed.insertions.length + s.owed.exchange.length < 2 ^ 16
    ∧ s.SequencesOk (2 ^ 20)
    ∧ ¬ (s.withSched { s.sched with queue := [placed 0, placed 0xFFFFFFFF] }).SequencesOk 0
    ∧ (after .post (commanded (.post 0 (setLine1 100)) s)).sched.queue.map (·.sequence) = [0xFFFFFFFF, 0, 1] := by decide +kernel
theorem test_premises_LocalTickCount :
    Instr.nop ≠ .tick 0 ∧ Instr.nop ≠ .hardwareReset ∧ after .nop State.reset = State.reset := by decide +kernel
theorem test_premises_ClusterAdvance :
    (listening.Quiet ∧ listening.clock.cluster = none)
    ∧ ((member 15).Quiet ∧ (member 15).clock.cluster = some 15 ∧ (member 15).clock.slew = 0)
    ∧ ((slewing 255).Quiet ∧ (slewing 255).clock.slew = 255 ∧ (slewing 255).clock.spacing + 1 = (slewing 255).spacingUnit)
    ∧ ((slewing (-1)).Quiet ∧ (slewing (-1)).clock.slew < 0) := by decide +kernel
theorem test_premises_InputsAndPortAtTick :
    (State.reset.Quiet ∧ State.reset.cap.filters = none ∧ State.reset.port.work = .idle)
    ∧ (listening.Quiet ∧ listening.cap.filters.isSome = true)
    ∧ ((current 15 .nop (member 9)).Quiet ∧ (current 15 .nop (member 9)).port.work = .current .nop 15)
    ∧ (let s := (member 9).withPort { (member 9).port with work := .refused Response.busy }
       s.Quiet ∧ s.port.work = .refused Response.busy)
    ∧ (let s := (member 9).withCap { (member 9).cap with filters := some (Vector.replicate 8
        { level := false, run := 3, first := some { ticks := 1, cluster := some 6 } }) }
       s.Quiet ∧ s.cap.filters.isSome = true)
    ∧ (let s := queued [entry1 100] (current 16 .stop (member 100))
       let s' := s.withOwed { s.owed with boundary := true, fireFrom := some 99 }
       s'.WaitOk ∧ ¬ s'.Quiet ∧ s'.afterLeft.member.state = .stopped ∧ s'.afterLeft.out.lines[(1 : Fin 8)] = .driven false none
       ∧ (after (.tick 0) s').port.work = .idle) := by decide +kernel
theorem test_premises_LineErrorsAtBoundary :
    let s := boundaryWith 2 (heard 31) (member 0x1000)
    s.owed.boundary = true ∧ s.member.state = .member ∧ s.line.errors = 0
    ∧ (s.withLine { s.line with errors := 65535 }).line.errors ≠ 0 := by decide +kernel
theorem test_premises_Correction :
    ([31] : List Int).length < 2 ∧ 2 ≤ ([16, 15] : List Int).length ∧ (∀ x ∈ (0 :: [16, 15] : List Int), x ≤ 16 ∧ 0 ≤ x)
    ∧ (40 : Int).natAbs ≤ 40 ∧ (40 : Int) < 41 ∧ (-41 : Int) < -40
    ∧ (let s := boundaryWith 2 (heard 500) (member 0x1000)
       s.owed.boundary = true ∧ s.valid = true ∧ s.member.state = .member ∧ s.verdict = .none)
    ∧ (let s := boundaryWith 2 (heard 8) (joining 0x1000)
       s.owed.boundary = true ∧ s.valid = true ∧ s.member.state = .joining ∧ s.verdict = .join) := by decide +kernel
theorem test_premises_PeerTableUpdate :
    let s (r : PeerRecord) := boundaryWith 2 r (member 0x1000)
    (∀ r ∈ [heard 500, heard 501, PeerRecord.cleared, { heard 0 with state := .synced, fresh := false, missed := 2 },
        { heard 0 with state := .heard, fresh := false, missed := 15 }, { heard 0 with state := .lost, fresh := false }],
      (s r).owed.boundary = true ∧ (s r).member.state = .member ∧ (s r).verdict = .none ∧ (s r).sync.peers[2] = r)
    ∧ ((s PeerRecord.cleared).sync.peers[5]).state = .self := by decide +kernel
theorem test_premises_SplitRound :
    let s (count : Nat) := (boundaryWith 2 (heard 501) (member 0x1000)).withSync
      { (boundaryWith 2 (heard 501) (member 0x1000)).sync with splitCount := count }
    (s 1).owed.boundary = true ∧ (s 1).member.state = .member ∧ (s 1).splitTest = true
    ∧ (s 1).sync.splitCount + 1 < (s 1).config.splitLimit ∧ (s 2).config.splitLimit ≤ (s 2).sync.splitCount + 1
    ∧ (boundaryWith 9 (heard 501) (member 0x1000)).splitTest = false := by decide +kernel
/-- R66, R73, R74: a STOP between an evaluation and its split makes the split void; a split taken first is followed by STOP in LISTEN;
the same of a join. A verdict has its effect in the state that takes it and none elsewhere. -/
theorem test_verdict_orders :
    let split := commanded .stop ((boundaryWith 2 (heard 501) (member 0x1000)).withSync
      { (boundaryWith 2 (heard 501) (member 0x1000)).sync with splitCount := 2 })
    let join := commanded .stop (boundaryWith 2 (heard 17) (joining 0x1000))
    let lone := commanded .stop ((joining 0x1000).withOwed { listening.owed with boundary := true })
    let failure := lone.withSync { lone.sync with noFresh := 2 }
    let between (s : State) := after (.roundBoundary .verdict) (after .stop (after (.roundBoundary (.evaluation .middle)) s))
    let behind (s : State) := after .stop (after (.roundBoundary (.whole .middle)) s)
    let states (s : State) := (s.port.reports.drop 1).map (·.detail) |>.filter (·.isState)
    split.verdict = .split ∧ join.verdict = .join ∧ failure.verdict = .joinFailure
    ∧ states (between failure) = [.state .joining .stopped .stop]
    ∧ states (behind failure) = [.state .joining .listen .joinFailed, .state .listen .stopped .stop]
    ∧ states (between split) = [.state .member .stopped .stop]
    ∧ states (behind split) = [.state .member .listen .split, .state .listen .stopped .stop]
    ∧ states (between join) = [.state .joining .stopped .stop]
    ∧ states (behind join) = [.state .joining .member .joined, .state .member .stopped .stop]
    ∧ (after (.roundBoundary .verdict) (after (.roundBoundary (.evaluation .last)) split)).member.state = .listen
    ∧ (between split).owed.verdict = none ∧ (between split).cont.queue = []
    ∧ (after (.roundBoundary (.evaluation .first)) split).owed.verdict = some { verdict := .split, turn := .first } := by decide +kernel
/-- R10, R43, R66: the LINE_ERRORS report of the boundary stands before the STATE report of a STOP between evaluation and verdict; and
an idle slot between the two sends no beacon of an evaluation that ends in a split, while that of one that does not is sent. -/
theorem test_between_evaluation_and_verdict :
    let s := idle ((boundaryWith 2 (heard 501) (member 0x5000)).withLine { (member 0x5000).line with errors := 2 })
    let split := s.withSync { s.sync with splitCount := 2 }
    let stop (u : State) := after .stop (commanded .stop (after (.roundBoundary (.evaluation .last)) u))
    let slot (u : State) := after .idleSlot (waiting [ownRecord] (after (.roundBoundary (.evaluation .first)) u))
    let told (u : State) := (u.port.reports.map (·.detail)).filter fun d => d.isState || d = .lineErrors 2
    told (stop split) = [.state .ready .listen .start, .lineErrors 2, .state .member .stopped .stop]
    ∧ (slot s).line.receiver = .send ∧ (slot split).line.receiver = .wait
    ∧ (after (.roundBoundary .verdict) (slot split)).cont.queue = [] := by decide +kernel
theorem test_premises_verdict :
    let s (v : Verdict) (turn : LineTurn) (u : State) := u.withOwed { u.owed with verdict := some { verdict := v, turn := turn } }
    ∀ u ∈ [s .none .first (member 9), s .split .first (joining 9), s .join .middle (member 9), s .joinFailure .first stopped,
        s .split .last listening],
      u.owed.verdict.isSome = true ∧ u.line.errors = 0
      ∧ after (.roundBoundary .verdict) u = u.withOwed { u.owed with verdict := none } := by decide +kernel
theorem test_premises_TeardownIntoListen :
    let split := boundaryWith 2 (heard 501) (queued [entry1 0x2000] (pulsing 0x1100 (member 0x1000)))
    let split' := split.withSync { split.sync with splitCount := 2 }
    let lone := (joining 0x1000).withOwed { listening.owed with boundary := true }
    let lone' := lone.withSync { lone.sync with noFresh := 2 }
    split'.owed.boundary = true ∧ split'.member.state = .member ∧ (after (.roundBoundary (.whole .first)) split').member.state = .listen
    ∧ split'.sched.queue ≠ []
    ∧ lone'.owed.boundary = true ∧ lone'.member.state = .joining ∧ (after (.roundBoundary (.whole .last)) lone').member.state = .listen
    ∧ lone'.sched.queue = [] := by decide +kernel
theorem test_premises_JoinTest :
    let s (offset : Int) (rounds : Nat) := (boundaryWith 2 (heard offset) (joining 0x1000)).withSync
      { (boundaryWith 2 (heard offset) (joining 0x1000)).sync with joinRounds := rounds }
    (s 17 0).owed.boundary = true ∧ (s 17 0).member.state = .joining ∧ (s 17 0).joinTest = true
    ∧ (s 18 3).joinTest = false ∧ 2 * (s 18 3).config.listenRounds ≤ (s 18 3).sync.joinRounds + 1
    ∧ (s 18 2).joinTest = false ∧ ¬ 2 * (s 18 2).config.listenRounds ≤ (s 18 2).sync.joinRounds + 1
    ∧ (s 18 2).heardMember = true := by decide +kernel
theorem test_premises_OwnBeacon :
    let s (queue : List TxRecord) := waiting queue (boundaryWith 2 (heard 0) (member 0x1000))
    (s []).owed.boundary = true ∧ (s []).member.state = .member ∧ (s []).verdict = .none
    ∧ (∃ x ∈ [{ ownRecord with inTransmission := true }], x.kind = .beacon ∧ x.inTransmission = true)
    ∧ (∀ x ∈ [ownRecord], x.kind = .beacon → x.inTransmission = false)
    ∧ (∀ x ∈ List.replicate 7 (TxRecord.fresh (.cancel 1 2) true none), x.kind ≠ .beacon)
    ∧ 8 ≤ (List.replicate 8 (TxRecord.fresh (.cancel 1 2) true none)).length := by decide +kernel
theorem test_premises_Founding :
    listening.member.state = .listen ∧ listening.clock.listen = some 0 ∧ listening.listenWindow = 9472
    ∧ (listening.withClock { listening.clock with listen := some 9472 }).clock.listen = some 9472 := by decide +kernel
theorem test_premises_Firing :
    let s := (queued [entry1 100, entry1 101] (member 100))|> firingFrom 99
    s.member.state = .member ∧ s.owed.fireFrom = some 99 ∧ (entry1 100).rep = none ∧ isAfter (entry1 100).due 99 = true
    ∧ isAfter (entry1 100).due s.now = false ∧ (∀ x ∈ [entry1 101], isAfter x.due s.now = true)
    ∧ s.out.lines[(1 : Fin 8)] = .driven false none
    ∧ (let due := [entry1 100, repeating 100 16 2, { repeating 101 16 7 with pendingRep := some { period := 32, count := 1 } }]
       let u := (queued (due ++ [entry1 102]) (member 101))|> firingFrom 99
       u.sched.queue = due ++ [entry1 102] ∧ (∀ e ∈ due, isAfter e.due 99 = true ∧ isAfter e.due u.now = false)
       ∧ isAfter 102 u.now = true ∧ isAfter (100 + 16) u.now = true
       ∧ (after .firing u).sched.queue.map (fun e => (e.due, e.rep, e.sequence))
         = [(102, none, 0), (116, some { period := 16, count := 1 }, 1)]) := by decide +kernel
theorem test_premises_FiringLeavesNothingDue :
    let s := (queued [repeating 100 16 2] (member 101))|> firingFrom 99
    s.ActionsOk ∧ s.member.state = .member ∧ s.owed.fireFrom = some 99 := by decide +kernel
theorem test_premises_StepAndSkip :
    (repeating 100 16 2).rep = some { period := 16, count := 2 } ∧ (repeating 100 16 2).pendingRep = none
    ∧ isBefore ((repeating 100 16 2).due + 16) 116 = false ∧ 16 ≤ (16 : Time).toNat ∧ (0x7FFFFFFF : Time).toNat < 2 ^ 31
    ∧ (skipMissed 100 200 16 7).1 = none ∧ isBefore (100 + 16 * BitVec.ofNat 32 (7 - 1)) (200 : Time) = true
    ∧ (skipMissed 100 200 16 8).1 = some (212, 1) ∧ (skipMissed 100 200 16 0).1 = some (212, 0)
    ∧ (let late (count : Byte) := repeating 84 16 count
       (late 9).rep = some { period := 16, count := 9 } ∧ (late 9).pendingRep = none ∧ (9 : Byte) ≠ 1
       ∧ isBefore ((late 9).due + 16) 200 = true ∧ (skipMissed 100 200 16 8).1 = some (212, 1) ∧ (skipMissed 100 200 16 7).1 = none
       ∧ stepEntry (late 9) 200 = (some (repeating 212 16 1), 7, some { left := 1, ended := false })
       ∧ stepEntry (late 8) 200 = (none, 7, some { left := 0, ended := true })) := by decide +kernel
theorem test_premises_PulseEndsAtItsTime :
    let s := pulsing 101 (member 100)
    s.Quiet ∧ s.member.state = .member ∧ s.clock.cluster = some 100 ∧ isAfter 101 (100 : Time) = true
    ∧ (after (.tick 0) s).now = 101 ∧ isAfter 102 (101 : Time) = true := by decide +kernel
theorem test_premises_QualifiedEdge :
    let s := qualifying 2 (member 9)
    let u := qualifying 3 (member 9)
    s.cap.filters.isSome = true ∧ (s.config.inputs[(2 : Fin 8)]).filter ≤ 4
    ∧ State.selects (s.config.inputs[(2 : Fin 8)]).mode .rise = true ∧ s.cap.log.length < 64 ∧ s.member.state = .member
    ∧ (∀ n : Fin 16, (s.config.reflexes[n]).enabled = false)
    ∧ State.selects (u.config.inputs[(3 : Fin 8)]).mode .rise = false
    ∧ (let r := reflexive s
       let v := r.withCap { r.cap with
         filters := some (Vector.replicate 8 { level := false, run := 4, first := some { ticks := 7, cluster := none } }) }
       v.member.state = .member ∧ (v.config.reflexes[(0 : Fin 16)]).enabled = true ∧ (v.config.reflexes[(0 : Fin 16)]).input = 2
       ∧ (v.config.reflexes[(0 : Fin 16)]).edge = .rise ∧ (after (.edgeQualified (.whole 2)) v).cont.queue = []
       ∧ (after (.edgeQualified (.whole 2)) r).cont.queue.length = 1) := by decide +kernel
/-- R156, R162: an edge, a reflex and an EVENT at a full log, under STOP and under WRAP. -/
theorem test_full_log :
    let wrap (u : State) := u.withCfg (some { u.config with logPolicy := .wrap })
    let s := fullLog (reflexive (qualifying 2 (member 9)))
    let edge := after (.edgeQualified (.whole 2))
    let event := after (.frameCompletion (.whole (samplesOf 2 0 (.event 0x0512 7 .fall 8 9))))
    let log (u : State) := (u.cap.log.length, u.cap.log.head?.map (·.sequence), u.cap.episode)
    s.cap.log.length = 64 ∧ s.config.logPolicy = .stop ∧ (wrap s).config.logPolicy = .wrap ∧ s.cap.episode = false
    ∧ log (edge s) = (64, some 0, true) ∧ log (edge (wrap s)) = (64, some 1, true)
    ∧ (edge s).cont.queue.length = 1 ∧ (edge (wrap s)).cont.queue.length = 1
    ∧ log (event (receiving s)) = (64, some 0, true) ∧ log (event (wrap (receiving s))) = (64, some 1, true)
    ∧ (edge s).port.reports.getLast?.map (·.detail) = some (.logOverflow .stop none)
    ∧ (edge (wrap s)).port.reports.getLast?.map (·.detail) = some (.logOverflow .wrap (some 0)) := by decide +kernel
theorem test_premises_Reflexes :
    let s := reflexive (qualifying 2 (member 9))
    s.owed.insertions = [] ∧ s.member.state = .member ∧ s.valid = true ∧ s.cont.queue.length < 8 ∧ s.cap.log.length < 64
    ∧ s.config.reflexes[(0 : Fin 16)] = publishing ∧ (s.config.reflexes[(1 : Fin 16)]).effect = .toSelf
    ∧ State.selects (s.config.inputs[(2 : Fin 8)]).mode .rise = true
    ∧ 8 ≤ (waiting (List.replicate 8 ownRecord) s).cont.queue.length
    ∧ s.enabled publishing.line = true ∧ isAfter (9 + 1000) s.now = true := by decide +kernel
/-- Station 5 with a rise at inputs 2 and 3; entry 0 acts LOCAL on a line outside the mask, entry 1 publishes, entry 2 acts LOCAL at
input 3. -/
def twoEdges : State :=
  let acts : ReflexEntry := { publishing with effect := .toSelf, delay := 1000 }
  let s := (member 9).withCfg (some { block with
    inputs := Vector.replicate 8 { mode := .rising, filter := 4 }
    reflexes := ((block.reflexes.set 0 { acts with line := 7 }).set 1 publishing).set 2 { acts with input := 3 } })
  s.withCap { s.cap with filters := some (Vector.replicate 8 { level := false, run := 4, first := some { ticks := 7, cluster := some 9 } }) }

/-- R160: with the insertion of a first edge left, that of a second edge reaches the scheduler after it, be it taken with its edge. -/
theorem test_edges_in_order :
    let s := twoEdges.withCfg (some { twoEdges.config with reflexes := twoEdges.config.reflexes.set 0 { twoEdges.config.reflexes[0] with line := 1 } })
    let t := after (.edgeQualified (.whole 3)) (after (.edgeQualified (.handOver 2)) s)
    t.owed.insertions = [] ∧ t.sched.queue.map (fun e => (e.id.serial, e.line.val, e.sequence)) = [(0x8000, 1, 1), (0x8001, 0, 2)] := by
  decide +kernel
/-- R166: the NOT_SENT of entry 1 stands behind the REFUSED of entry 0, whenever the scheduler takes the insertion of entry 0; a STOP
in between leaves no REFUSED, and the NOT_SENT stands before the STATE report. -/
theorem test_reflex_reports_in_order :
    let s := commanded .stop (waiting (List.replicate 8 ownRecord) twoEdges)
    let details (s : State) := (s.port.reports.drop 1).map (·.detail)
    let refused : ReportDetail := .refused { origin := 5, serial := 0x8000 } 5 2
    let unsent : ReportDetail := .notSent .event (.reflex 1 none)
    let left := after (.edgeQualified (.handOver 2)) s
    details (after (.edgeQualified (.whole 2)) s) = [refused, unsent]
    ∧ details left = [] ∧ left.waitingReports.map (·.detail) = [unsent]
    ∧ details (after (.edgeQualified .insertion) left) = [refused, unsent]
    ∧ details (after (.tick 0) left) = [refused, unsent]
    ∧ details (after (.edgeQualified .insertion) (after .stop left)) = [unsent, .state .member .stopped .stop] := by decide +kernel
/-- R165: a LOCAL insertion is taken with the edge, or left to the scheduler; a STOP between the two makes it NOT MEMBER, with no
report of its own and the serial taken. -/
theorem test_local_reflex_orders :
    let s := reflexive (qualifying 2 (member 9))
    let whole := after (.edgeQualified (.whole 2)) s
    let left := after (.edgeQualified (.handOver 2)) s
    let stopped := after .stop (commanded .stop left)
    let taken := after (.edgeQualified .insertion) stopped
    whole.sched.queue.map (fun e => (e.id.serial, e.due, e.source)) = [(0x8000, 1009, .reflex)]
    ∧ left.sched.queue = [] ∧ left.owed.insertions.length = 1 ∧ left.cap.reflexSerial = 0x8001
    ∧ (after (.edgeQualified .insertion) left).sched = whole.sched
    ∧ taken.owed.insertions = [] ∧ taken.sched.queue = [] ∧ taken.port.reports = stopped.port.reports
    ∧ taken.cap.reflexSerial = 0x8001
    ∧ (after (.tick 0) left).owed.insertions = [] ∧ (after (.tick 0) left).sched.queue.map (·.id.serial) = [0x8000] := by
  decide +kernel
theorem test_premises_IdleAndStartEdges :
    listening.line.receiver = .seek ∧ listening.cont.idle = false ∧ (idle listening).line.receiver = .wait
    ∧ (receiving listening).line.receiver = .receive ∧ (receiving listening).line.frame = some begun
    ∧ (PartialFrame.awaiting [0x22]).bits = [] ∧ ({ begun with bits := [false, true] } : PartialFrame).bits ≠ [] := by decide +kernel
theorem test_premises_IdleSlot :
    let s := waiting [.fresh (.cancel 1 2) true none, ownRecord] (idle (member 0x5000))
    (idle (member 0x5000)).cont.idle = true ∧ (idle (member 0x5000)).cont.queue = []
    ∧ s.cont.idle = true ∧ (∀ x ∈ s.cont.queue, x.inTransmission = false ∧ ownRecord.frameClass ≤ x.frameClass)
    ∧ (TxRecord.fresh (.cancel 1 2) true none).frameClass ≠ ownRecord.frameClass
    ∧ 16 * ownRecord.frameClass + rank s.number s.round = 0
    ∧ (let handed (v : Verdict) := s.withOwed { s.owed with verdict := some { verdict := v, turn := .last } }
       (after .idleSlot (handed .none)).line.receiver = .send ∧ (after .idleSlot (handed .split)).line.receiver = .wait) := by
  decide +kernel
theorem test_premises_ContentionValue : rank 5 19 = 2 ∧ rank 5 22 = 15 := by decide
theorem test_premises_FrameErrors :
    let s := receiving (member 9)
    s.line.receiver = .receive ∧ s.line.frame = some begun ∧ (PartialFrame.awaiting [0x22]).bits = []
    ∧ takeSamples begun (List.replicate 9 false) = .error
    ∧ takeSamples begun [true] = .more { chars := [], bits := [false, true], gap := 0 }
    ∧ takeSamples (.awaiting [0x22]) (List.replicate 10 true ++ [false]) = .more { chars := [0x22], bits := [false], gap := 0 }
    ∧ takeSamples (.awaiting [0x22]) (List.replicate 11 true) = .truncated
    ∧ takeSamples (.awaiting [0x22]) ((characterBits 0x09).take 9 ++ [false]) = .error := by decide +kernel
/-- R1, R3, R5, R7: characters that are taken and characters that are receive errors, in a frame of station 2. -/
theorem test_receive_errors :
    let taken (chars : List Byte) (b : Byte) := takeSamples (.awaiting chars) (characterBits b) = .more (.awaiting (chars ++ [b]))
    let error (chars : List Byte) (b : Byte) := takeSamples (.awaiting chars) (characterBits b) = .error
    let action := frameBytes 2 0 (.action (setLine1 100))
    let pulse := frameBytes 2 0 (.action { setLine1 100 with kind := .pulse, width := some 1 })
    let wrong := pulse.take 10 ++ [0x21] ++ (pulse.drop 11).take 2
    let check := crc16 wrong
    (∀ kind ∈ [1, 2, 3, 4, 5, 6], taken [] (BitVec.ofNat 8 (32 * kind + 2))) ∧ error [] 0x02 ∧ error [] 0xE2
    ∧ (∀ length ∈ [9, 11, 14, 16], taken [0x42] length) ∧ error [0x42] 10 ∧ taken [0x22] 8 ∧ error [0x22] 9
    ∧ action.length = 13 ∧ taken (action.take 11) (action.getD 11 0)
    ∧ takeSamples (.awaiting (action.take 12)) (characterBits (action.getD 12 0))
      = .valid { sender := 2, payload := .action (setLine1 100) }
    ∧ error (action.take 12) (action.getD 12 0 + 1)
    ∧ wrong.length = 13 ∧ error (wrong ++ [check.extractLsb' 0 8]) (check.extractLsb' 8 8) := by decide +kernel
theorem test_premises_Adoption :
    let s := receiving listening
    let joiner : BeaconBody := { memberBody with member := false }
    s.line.receiver = .receive ∧ s.line.frame = some begun ∧ s.line.sof = some { localStamp := 100, clusterStamp := none }
    ∧ takeSamples begun (samplesOf 2 77 (.beacon none memberBody)) = .valid { sender := 2, payload := .beacon (some 77) memberBody }
    ∧ takeSamples begun (samplesOf 2 77 (.beacon none joiner)) = .valid { sender := 2, payload := .beacon (some 77) joiner }
    ∧ s.member.state = .listen ∧ (2 : Station) ≠ s.number := by decide +kernel
theorem test_premises_BeaconReceipt :
    let s := receiving (member 9)
    s.line.receiver = .receive ∧ s.line.frame = some begun ∧ s.line.sof = some { localStamp := 100, clusterStamp := some 9 }
    ∧ (receiving listening).line.sof = some { localStamp := 100, clusterStamp := none }
    ∧ s.member.state = .member ∧ (2 : Station) ≠ s.number := by decide +kernel
theorem test_premises_DuplicateStops :
    takeSamples begun (samplesOf 5 0 (.cancel 1 2)) = .valid { sender := 5, payload := .cancel 1 2 }
    ∧ (∀ s ∈ [receiving listening, receiving (joining 9), receiving (member 9)],
      s.line.receiver = .receive ∧ s.line.frame = some begun ∧ s.number = 5 ∧ s.active = true ∧ s.PhaseOk)
    ∧ (let left := after (.edgeQualified (.handOver 2)) (waiting (List.replicate 8 ownRecord) twoEdges)
       let s := receiving ((queued [entry1 100] left).withOwed { left.owed with verdict := some { verdict := .none, turn := .last } })
       let s := s.withLine { s.line with errors := 3 }
       ((after (.frameCompletion (.whole (samplesOf 5 0 (.cancel 1 2)))) s).port.reports.drop 1).map (·.detail)
        = [.lineErrors 3, .notSent .event (.reflex 1 none), .state .member .stopped .duplicate, .flushed 1 .duplicate]) := by
  decide +kernel
/-- The premises of each clause of an insertion, at the cluster time 9: a line outside the mask, a bad period and width, a full
queue, an action placed, dropped, fired when due and fired late. -/
theorem test_premises_Inserts :
    let u := member 9
    let full := queued fullQueue u
    u.enabled 4 = false ∧ u.enabled 1 = true ∧ ¬ 16 ≤ (15 : Time).toNat ∧ ¬ (0x80000000 : Time).toNat < 2 ^ 31
    ∧ (setLine1 10).rep = none ∧ (setLine1 10).kind ≠ .pulse
    ∧ ¬ full.sched.queue.length < 32 ∧ (∀ x ∈ full.sched.queue, x.id ≠ { origin := 9, serial := 0x10 })
    ∧ (∃ x ∈ full.sched.queue, x.id = { origin := 2, serial := 0x10 }) ∧ u.sched.queue.length < 32
    ∧ isAfter 10 u.now = true ∧ isBefore 8 u.now = true ∧ u.config.latePolicy = .fire
    ∧ (u.withCfg (some { block with latePolicy := .drop })).config.latePolicy = .drop := by decide +kernel
/-- A repeating action of period 16 inserted at the time 25: what it leaves in the queue and the details it reports. -/
def insertedAt25 (due : Time) (count : Byte) : List (Time × BitVec 32 × Option Repeat) × List ReportDetail :=
  let t := after .post (commanded (.post 0 { setLine1 due with rep := some { period := 16, count := count } }) (member 25))
  (t.sched.queue.map fun e => (e.due, e.sequence, e.rep), (t.port.reports.drop 1).map (·.detail))
/-- R100, R102, R105–R108: a repeating action that fires at its insertion: its last firing, a next due time after now, one that is now,
with the count left or ended, and one before now that is skipped. -/
theorem test_repeating_insertion :
    let id : ActionId := { origin := 5, serial := 0x10 }
    let left (count : Byte) : Option Repeat := some { period := 16, count := count }
    let fired (due : Time) (left : Byte) (ended : Bool) : ReportDetail := .fired id 1 .set due (some { left := left, ended := ended })
    [(25, 1), (25, 3), (9, 3), (9, 2), (8, 3), (8, 2)].map (fun x : Time × Byte => insertedAt25 x.1 x.2) =
      [([], [fired 25 0 true]), ([(41, 1, left 2)], [fired 25 2 false]),
        ([(41, 2, left 1)], [.late id 16 0, fired 9 2 false, fired 25 1 false]),
        ([], [.late id 16 0, fired 9 1 false, fired 25 0 true]),
        ([(40, 1, left 1)], [.late id 17 1, fired 8 1 false]), ([], [.late id 17 1, fired 8 0 true])] := by decide +kernel
theorem test_premises_InboundAction :
    let s := receiving (member 9)
    s.owed.exchange = [] ∧ s.line.receiver = .receive ∧ s.line.frame = some begun ∧ (2 : Station) ≠ s.number
    ∧ (∀ a ∈ [setLine1 10, setLine1 8, { setLine1 10 with line := 5 }, { setLine1 10 with kind := .pulse, width := some 0 }],
      takeSamples begun (samplesOf 2 0 (.action a)) = .valid { sender := 2, payload := .action a })
    ∧ s.member.state = .member ∧ s.passes 0xFFFF = true ∧ s.passes 0x0634 = false ∧ s.cont.queue.length < 8
    ∧ 8 ≤ (waiting (List.replicate 8 ownRecord) s).cont.queue.length
    ∧ (after (.frameCompletion (.whole (samplesOf 2 0 (.action (setLine1 8)))))
        (s.withCfg (some { block with latePolicy := .drop }))).port.reports.getLast?.map (·.detail)
      = some (.dropped { origin := 2, serial := 0x10 } 1) := by decide +kernel
/-- R19, R135, R137: the claim of a frame, the REFUSE it makes, and a STOP before the one or the other: with 8 records held the request
is reported as NOT_SENT in MEMBER and discarded with no report after the teardown. -/
theorem test_claim_and_refuse_orders :
    let s := receiving (commanded .stop ((waiting (List.replicate 8 ownRecord) (member 9)).withCfg (some { block with latePolicy := .drop })))
    let samples := samplesOf 2 0 (.action (setLine1 8))
    let details (s : State) := (s.port.reports.drop 1).map (·.detail)
    let id : ActionId := { origin := 2, serial := 0x10 }
    let claimed := after (.frameCompletion (.handOver samples)) s
    let refused := after (.frameCompletion .next) claimed
    claimed.owed.exchange = [.claim 2 (.action (setLine1 8))] ∧ refused.owed.exchange = [.refusal id 4]
    ∧ details claimed = [] ∧ details refused = [.dropped id 1]
    ∧ details (after (.frameCompletion .next) refused) = [.dropped id 1, .notSent .refuse (.action id)]
    ∧ details (after (.frameCompletion .next) (after .stop refused)) = [.dropped id 1, .state .member .stopped .stop]
    ∧ details (after (.frameCompletion .next) (after .stop claimed)) = [.state .member .stopped .stop]
    ∧ after (.frameCompletion (.whole samples)) s = after (.frameCompletion .next) (after (.frameCompletion .next) claimed)
    ∧ (after (.tick 0) claimed).owed.exchange = [] := by decide +kernel
theorem test_premises_handedOn :
    let s := queued [{ repeating 100 16 2 with id := { origin := 2, serial := 0x10 } }, entry1 101] (member 9)
    let given (h : HandedOn) (u : State) := u.withOwed { u.owed with exchange := [h] }
    let next (h : HandedOn) (u : State) := after (.frameCompletion .next) (given h u)
    let id : ActionId := { origin := 2, serial := 0x10 }
    (next (.claim 2 (.cancel 0xFFFF 0x10)) s).sched.queue = [entry1 101]
    ∧ (next (.claim 2 (.amend 0xFFFF 0x10 { period := 16, count := 1 })) s).sched.queue.map (·.pendingRep)
      = [some { period := 16, count := 1 }, none]
    ∧ (next (.claim 2 (.amend 0xFFFF 0x10 { period := 15, count := 1 })) s).owed.exchange = [.refusal id 3]
    ∧ (next (.claim 5 (.amend 0xFFFF 0x10 { period := 16, count := 1 })) s).owed.exchange = [.refusal { id with origin := 5 } 5]
    ∧ next (.claim 9 (.amend 0xFFFF 0x10 { period := 16, count := 1 })) s = s
    ∧ next (.claim 2 (.cancel 0xFFFF 0x10)) stopped = stopped ∧ next (.refusal id 4) (joining 9) = joining 9
    ∧ (next (.refusal id 4) s).cont.queue.map (·.payload) = [.refuse 2 0x10 4] := by decide +kernel
theorem test_premises_InboundAmendAndCancel :
    let e := { repeating 100 16 2 with id := { origin := 2, serial := 0x10 } }
    let s := receiving (queued [e] (member 9))
    s.line.receiver = .receive ∧ s.line.frame = some begun ∧ s.member.state = .member ∧ (2 : Station) ≠ s.number
    ∧ s.passes 0xFFFF = true ∧ s.sched.queue = [] ++ e :: [] ∧ e.rep.isSome = true
    ∧ takeSamples begun (samplesOf 2 0 (.cancel 0xFFFF 0x10)) = .valid { sender := 2, payload := .cancel 0xFFFF 0x10 }
    ∧ takeSamples begun (samplesOf 2 0 (.amend 0xFFFF 0x10 { period := 16, count := 0 }))
      = .valid { sender := 2, payload := .amend 0xFFFF 0x10 { period := 16, count := 0 } }
    ∧ (entry1 100).rep = none ∧ s.cont.queue.length < 8
    ∧ s.passes 0x0634 = false ∧ (receiving (joining 9)).member.state ≠ .member
    ∧ takeSamples begun (samplesOf 2 0 (.cancel 0x0634 0x10)) = .valid { sender := 2, payload := .cancel 0x0634 0x10 }
    ∧ (after (.frameCompletion (.whole (samplesOf 2 0 (.cancel 0x0634 0x10)))) s).sched.queue = [e] := by decide +kernel
theorem test_premises_RemoteEventAndRefuse :
    let s := receiving (member 9)
    s.line.receiver = .receive ∧ s.line.frame = some begun ∧ s.member.state = .member ∧ (2 : Station) ≠ s.number
    ∧ takeSamples begun (samplesOf 2 0 (.event 0x0512 7 .fall 8 9)) = .valid { sender := 2, payload := .event 0x0512 7 .fall 8 9 }
    ∧ s.passes 0x0512 = true ∧ s.passes 0x0634 = false ∧ s.cap.log.length < 64
    ∧ takeSamples begun (samplesOf 2 0 (.refuse 5 1 2)) = .valid { sender := 2, payload := .refuse 5 1 2 }
    ∧ takeSamples begun (samplesOf 2 0 (.refuse 9 1 2)) = .valid { sender := 2, payload := .refuse 9 1 2 } ∧ s.number = 5
    ∧ (receiving (joining 9)).member.state ≠ .member ∧ Payload.kind (.refuse 5 1 2) = .refuse
    ∧ Payload.kind (.event 0x0512 7 .fall 8 9) = .event
    ∧ (after (.frameCompletion (.whole (samplesOf 2 0 (.refuse 5 1 2)))) (receiving (joining 9))).port.reports
      = (joining 9).port.reports := by
  decide +kernel
theorem test_premises_TransmissionSuccess :
    let s := sending (.action (setLine1 100)) (member 9)
    let r := { TxRecord.fresh (.action (setLine1 100)) true none with inTransmission := true }
    s.line.receiver = .send ∧ s.cont.queue = [] ++ r :: [] ∧ r.inTransmission = true ∧ r.isVoid = false ∧ r.selfDelivery = true
    ∧ s.member.state = .member ∧ s.passes 0xFFFF = true ∧ s.passes 0x0634 = false
    ∧ (let e := repeating 100 16 2
       let u := queued [e] (sending (.amend 0xFFFF 0x10 { period := 15, count := 0 }) (member 9))
       u.sched.queue = [] ++ e :: [] ∧ e.id = { origin := u.number, serial := 0x10 } ∧ e.rep.isSome = true ∧ (entry1 100).rep = none
       ∧ (after .transmissionSuccess u).port.reports.getLast?.map (·.detail) = some (.refused e.id 5 3)
       ∧ (after .transmissionSuccess (queued [e] (sending (.cancel 0xFFFF 0x10) (member 9)))).sched.queue = [])
    := by decide +kernel
theorem test_premises_ReadbackMismatch :
    let s := sending (.cancel 1 2) (member 9)
    let r := { TxRecord.fresh (.cancel 1 2) true none with inTransmission := true }
    s.line.receiver = .send ∧ s.cont.queue = [] ++ r :: [] ∧ r.inTransmission = true ∧ r.attempts < 7
    ∧ (bitsOfFrame s.line.sending)[1]? = some true ∧ (bitsOfFrame s.line.sending)[9]? = some true
    ∧ takeSamples (.awaiting []) ((bitsOfFrame s.line.sending).take 1) = .more .started
    ∧ (match takeSamples (.awaiting []) ((bitsOfFrame s.line.sending).take 9) with
        | .more f => decide (f.bits.length = 9)
        | .truncated | .error | .valid _ => false) = true := by decide +kernel
theorem test_premises_StuckLine :
    (idle (member 9)).line.receiver = .wait ∧ (idle (member 9)).line.muted = false
    ∧ (sending (.cancel 1 2) (member 9)).line.receiver = .send
    ∧ (sending (.cancel 1 2) (member 9)).cont.queue.map (fun r => (r.inTransmission, r.isVoid, r.attempts)) = [(true, false, 0)]
    ∧ (let u := after .stop (commanded .stop (sending (.cancel 1 2) (member 9)))
       u.line.receiver = .send ∧ u.line.afterSend = .off ∧ u.cont.queue.map (fun r => (r.inTransmission, r.isVoid)) = [(true, true)]
       ∧ (after .lineStuck u).line.receiver = .off ∧ (after .lineStuck u).cont.queue = [])
    ∧ (let r := { TxRecord.fresh (.cancel 1 2) true none with inTransmission := true, attempts := 7 }
       let u := after .lineStuck (waiting [r] (sending (.cancel 1 2) (member 9)))
       u.cont.queue = [] ∧ (u.port.reports.drop 1).map (·.detail)
         = [.txAbandoned .cancel (.action { origin := 5, serial := 2 }), .line .stuck])
    ∧ (after .lineStuck (idle (member 9))).line.receiver = .stuck
    ∧ (let s := after .lineIdle (after .stuckRunEnd (after .lineStuck (idle (member 9))))
       s.line.muted = true ∧ s.line.receiver = .wait) := by decide +kernel
theorem test_premises_Transactions :
    State.reset.port.transaction = none ∧ State.reset.port.work = .idle ∧ State.reset.port.response = some Response.reset
    ∧ (commanded .nop State.reset).port.work ≠ .idle
    ∧ (after .transactionBegin State.reset).port.transaction = some { busy := false, sdo := [0, 0, 0, 0] } := by decide +kernel
theorem test_premises_PacketJudged :
    commandOf 0x20 [8] = some (some (.readLog 8)) ∧ commandOf 0x20 [8, 8] = some none ∧ commandOf 0x05 [] = none
    ∧ (0x20 : Byte) + BitVec.ofNat 8 1 + ([8] : List Byte).sum + 0 ≠ 0
    ∧ ([8] : List Byte).length < (1 : Byte).toNat + 1
    ∧ (setLine1 100).width.isSome = decide ((setLine1 100).kind = .pulse)
    ∧ commandOf 0x10 (List.replicate 9 0 ++ [0x58]) = some none := by decide +kernel
theorem test_premises_commands :
    ∀ n ∈ [1, 16], ∀ c ∈ [Command.nop, .status, .configure blockBytes, .start, .stop, .post 0 (setLine1 100), .find 5 0x10,
      .readLog 8, .readReports 1, .readPeers, .snapshot, .drive 7 2],
      1 ≤ n ∧ n ≤ 16 ∧ (current n c (member 9)).port.work = .current c n := by decide +kernel
theorem test_premises_Configure :
    State.reset.member.state = .unconfigured ∧ ready.member.state = .ready ∧ (configOf blockBytes).isSome = true
    ∧ configOf (blockBytes.set 1 4) = none ∧ configOf (blockBytes.set 172 0 |>.set 164 0x30) = none := by decide +kernel
theorem test_premises_Start :
    ready.member.state = .ready ∧ ready.port.block = some block ∧ stopped.member.state = .stopped ∧ stopped.cfg = some block
    ∧ stopped.member.number = some 5 ∧ ready.line.receiver ≠ .send
    ∧ (let left := (sending (.cancel 1 2) (member 9)).enterStopped .stop
       let s := after .start (commanded .start left)
       left.member.state = .stopped ∧ left.line.receiver = .send ∧ left.cont.queue.map (fun r => (r.inTransmission, r.isVoid)) = [(true, true)]
       ∧ (bitsOfFrame left.line.sending)[9]? = some true
       ∧ s.line.receiver = .send ∧ (after .transmissionSuccess s).line.receiver = .seek
       ∧ (after (.readbackMismatch 9) s).line.receiver = .seek ∧ (after (.readbackMismatch 9) s).cont.queue = []) := by decide +kernel
theorem test_premises_Stop :
    ∀ s ∈ [listening, joining 9, queued [entry1 100] (member 9), sending (.cancel 1 2) (member 9)],
      (current 16 .stop s).active = true ∧ (current 16 .stop s).PhaseOk := by decide +kernel
theorem test_premises_PostLocal :
    let s := member 9
    s.member.state = .member ∧ 1 < (2 : Byte).toNat ∧ (0x8000 : Half).toNat ≤ (0x8000 : Half).toNat ∧ s.enabled 4 = false
    ∧ (setLine1 10).serial.toNat < 0x8000 ∧ s.enabled 1 = true ∧ (setLine1 10).rep = none ∧ (setLine1 10).kind ≠ .pulse
    ∧ (∀ x ∈ fullQueue, x.id ≠ { origin := s.number, serial := 0x10 }) ∧ 32 ≤ fullQueue.length
    ∧ isAfter (setLine1 10).due s.now = true ∧ ¬ 16 ≤ (15 : Time).toNat ∧ ¬ (0x80000000 : Time).toNat < 2 ^ 31
    ∧ (∃ x ∈ [entry1 100], x.id = { origin := s.number, serial := 0x10 }) := by decide +kernel
theorem test_premises_PostLate :
    let s := member 9
    let t := s.withCfg (some { block with latePolicy := .drop })
    s.member.state = .member ∧ (setLine1 8).serial.toNat < 0x8000 ∧ s.enabled (setLine1 8).line = true ∧ (setLine1 8).rep = none
    ∧ (setLine1 8).kind ≠ .pulse ∧ s.sched.queue = [] ∧ isBefore (setLine1 8).due s.now = true ∧ (setLine1 9).due = s.now
    ∧ s.config.latePolicy = .fire ∧ t.config.latePolicy = .drop
    ∧ 16 ≤ (16 : Time).toNat ∧ (0x7FFFFFFF : Time).toNat < 2 ^ 31
    ∧ (∃ x ∈ [entry1 100], x.id = { origin := s.number, serial := 0x10 })
    ∧ (∀ u ∈ [s, t], (after .post (commanded (.post 0 (setLine1 8)) (queued [entry1 100] u))).sched.queue = []) := by decide +kernel
theorem test_premises_ClusterScope :
    let s := member 9
    1 < (2 : Byte).toNat ∧
    s.member.state = .member ∧ (setLine1 100).serial.toNat < 0x8000 ∧ s.cont.queue.length < 8
    ∧ 8 ≤ (waiting (List.replicate 8 ownRecord) s).cont.queue.length := by decide +kernel
theorem test_premises_AmendAndCancelLocal :
    let s := queued [repeating 100 16 2] (member 9)
    s.member.state = .member ∧ s.sched.queue = [] ++ repeating 100 16 2 :: []
    ∧ (repeating 100 16 2).id = { origin := s.number, serial := 0x10 } ∧ (repeating 100 16 2).rep.isSome = true
    ∧ (entry1 100).rep = none ∧ (member 9).sched.queue = [] ∧ ¬ 16 ≤ (15 : Time).toNat ∧ 16 ≤ (16 : Time).toNat := by
  decide +kernel
theorem test_premises_FindAndReadPeers :
    let s := queued [entry1 100] (member 9)
    16 ≤ (16 : Byte).toNat ∧ (5 : Byte).toNat < 16 ∧ s.sched.queue = [] ++ entry1 100 :: []
    ∧ (entry1 100).id.origin.val = (5 : Byte).toNat ∧ (entry1 100).id.serial = 0x10 ∧ (member 9).sched.queue = [] := by
  decide +kernel
theorem test_premises_LogAndReportCommands :
    8 < (9 : Byte).toNat ∧ 1 ≤ (8 : Byte).toNat ∧ (member 9).active = true ∧ stopped.member.state = .stopped
    ∧ (member 9).cap.log.length < 64 ∧ 64 ≤ (fullLog (member 9)).cap.log.length ∧ (fullLog (member 9)).config.logPolicy = .stop
    ∧ ((fullLog (member 9)).withCfg (some { block with logPolicy := .wrap })).config.logPolicy = .wrap := by decide +kernel
theorem test_premises_Drive :
    (member 9).active = true ∧ stopped.member.state = .stopped ∧ 2 < (3 : Byte).toNat ∧ 7 < (8 : Byte).toNat
    ∧ (7 : Fin 8).val = (7 : Byte).toNat ∧ (member 9).enabled 7 = false ∧ (member 9).enabled 3 = true
    ∧ (member 9).out.lines[(3 : Fin 8)] = .driven false none := by decide +kernel
theorem test_premises_BadState :
    Command.allowedIn .start (member 9).member.state = false ∧ Command.allowedIn .stop State.reset.member.state = false := by
  decide +kernel
theorem test_premises_WindowsPass :
    (after (.tick 0) (current 16 .start ready)).exch ≠ ready.exch ∧ (current 15 .start ready).port.work = .current .start 15 ∧
    after .snapshot (commanded .snapshot (member 9)) ≠ member 9 ∧ Instr.snapshot ≠ .start ∧ Instr.snapshot ≠ .hardwareReset := by
  decide +kernel
theorem test_premises_ReportsKept :
    let r (d : ReportDetail) : Report := { detail := d, stamp := 1, unsynced := false }
    (r (.overflow 255)).detail = .overflow 255 ∧ (List.replicate 31 (r (.alone true))).length = 31
    ∧ (∀ last ∈ (List.replicate 31 (r (.alone true))).getLast?, last.isOverflow = false)
    ∧ (List.replicate 30 (r (.alone true))).length < 31 := by
  refine ⟨rfl, rfl, ?_, by decide⟩
  intro last h; cases h; rfl
theorem test_premises_invariants :
    let s := (queued [repeating 100 16 2] (pulsing 90 (member 9))).withPending [.tick 0]
    (s.ReportsOk ∧ s.TransmitOk ∧ s.LogOk ∧ s.AttnOk ∧ s.PhaseOk)
    ∧ (s.ConfigOk ∧ s.OutputsOk ∧ s.PeersOk ∧ s.ActionsOk ∧ s.SlewOk ∧ s.WaitOk)
    ∧ step s = .next (after (.tick 0) (s.withPending [])) :=
  ⟨by decide +kernel, by decide +kernel, rfl⟩
/-- R185: header, length and payload of a frame of each kind from station 5. -/
theorem test_frame_layouts :
    let sent (p : Payload) := (frameBytes 5 0x44332211 p).dropLast.dropLast
    let a : ActionFields := { selector := 0x0102, serial := 0x0304, due := 0x05060708, line := 3, kind := .pulse, notify := true,
                              width := some 0x090A, rep := some { period := 0x0B0C0D0E, count := 0x0F } }
    sent (.beacon none { member := true, alone := true, count := 9, bitmap := 0x8001 })
      = [0x25, 8, 0x11, 0x22, 0x33, 0x44, 0x03, 9, 0x01, 0x80]
    ∧ sent (.action a) = [0x45, 16, 0x02, 0x01, 0x04, 0x03, 0x08, 0x07, 0x06, 0x05, 0x7B, 0x0A, 0x09, 0x0E, 0x0D, 0x0C, 0x0B, 0x0F]
    ∧ sent (.amend 0x0102 0x0304 { period := 0x05060708, count := 9 }) = [0x65, 9, 0x02, 0x01, 0x04, 0x03, 0x08, 0x07, 0x06, 0x05, 9]
    ∧ sent (.cancel 0x0102 0x0304) = [0x85, 4, 0x02, 0x01, 0x04, 0x03]
    ∧ sent (.event 0x0102 6 .fall 0x03040506 0x0708) = [0xA5, 9, 0x02, 0x01, 0x0E, 0x06, 0x05, 0x04, 0x03, 0x08, 0x07]
    ∧ sent (.refuse 9 0x0102 3) = [0xC5, 4, 9, 0x02, 0x01, 3] := by decide +kernel
theorem test_premises_FrameRoundTrip :
    Payload.wellFormed (.action (setLine1 100)) = true
    ∧ Payload.wellFormed (.action { setLine1 100 with kind := .pulse, width := some 0 }) = true
    ∧ Payload.wellFormed (.beacon none memberBody) = true := by decide
theorem test_premises_FrameRoundTrip_gap : ∃ gap : Nat → Nat, (∀ i, gap i < 11) ∧ gap 1 = 10 := ⟨fun _ => 10, fun _ => Nat.lt_succ_self 10, rfl⟩

end Sys2Proof.Tests
end

section
/-! PROOFS. The rows of the events, each by what it does when its event has come about and when it has not (log 2): one equation per
case, cited by the statements on the cluster line. -/

namespace Sys2Proof.Machine

/-! ### The events of time: a row is the operation that takes what the tick owes -/

section

variable (s : State)

theorem exec_roundBoundary_whole (turn : LineTurn) : exec (.roundBoundary (.whole turn)) s = .next (s.boundaryOwed turn) := rfl
theorem exec_roundBoundary_evaluation (turn : LineTurn) :
    exec (.roundBoundary (.evaluation turn)) s = .next (s.evaluationOwed turn) := rfl
theorem exec_roundBoundary_verdict : exec (.roundBoundary .verdict) s = .next s.takeHandedVerdict := rfl
theorem exec_listenWindowExpiry : exec .listenWindowExpiry s = .next s.foundOwed := rfl
theorem exec_firing : exec .firing s = .next s.fireOwed := rfl
theorem exec_pulseEnd (l : Fin 8) : exec (.pulseEnd l) s = .next (s.endPulse l) := rfl
theorem exec_edgeQualified_whole (i : Fin 8) : exec (.edgeQualified (.whole i)) s = .next (s.qualify true i) := rfl
theorem exec_edgeQualified_handOver (i : Fin 8) : exec (.edgeQualified (.handOver i)) s = .next (s.qualify false i) := rfl
theorem exec_edgeQualified_insertion : exec (.edgeQualified .insertion) s = .next s.insertNext := rfl
theorem exec_frameCompletion_next : exec (.frameCompletion .next) s = .next s.takeHandedOn := rfl

end

/-! ### What the operations make of a tick that owes nothing -/

section

variable {s : State}

theorem State.meetsBoundary_eq_true (owed : s.owed.boundary = true) (state : s.member.state = .joining ∨ s.member.state = .member) :
    s.meetsBoundary = true := by simp [meetsBoundary, owed, state]

theorem State.meetsBoundary_eq_false (unmet : s.owed.boundary = false ∨ (s.member.state ≠ .joining ∧ s.member.state ≠ .member)) :
    s.meetsBoundary = false := by
  rcases unmet with h | h <;> simp [meetsBoundary, h]

theorem State.boundaryOwed_of_meets (turn : LineTurn) (meets : s.meetsBoundary = true) : s.boundaryOwed turn = s.boundary turn :=
  if_pos meets

theorem State.evaluationOwed_of_meets (turn : LineTurn) (meets : s.meetsBoundary = true) :
    s.evaluationOwed turn = s.evaluation turn := if_pos meets

theorem State.boundaryOwed_of_unmet (turn : LineTurn) (unmet : s.meetsBoundary = false) : s.boundaryOwed turn = s := by
  simp [boundaryOwed, unmet]

theorem State.evaluationOwed_of_unmet (turn : LineTurn) (unmet : s.meetsBoundary = false) : s.evaluationOwed turn = s := by
  simp [evaluationOwed, unmet]

theorem State.takeHandedVerdict_of_none (h : s.owed.verdict = none) : s.takeHandedVerdict = s := by simp [takeHandedVerdict, h]

theorem State.foundOwed_of_unmet (unmet : s.member.state ≠ .listen ∨ ∀ n, s.clock.listen = some n → n < s.listenWindow) :
    s.foundOwed = s := by
  refine if_neg fun expired => ?_
  simp only [windowExpired, Bool.and_eq_true, decide_eq_true_eq] at expired
  obtain ⟨listening, reached⟩ := expired
  rcases unmet with other | short
  · exact other listening
  · cases h : s.clock.listen with
    | none => simp [h] at reached
    | some n =>
      have := short n h
      rw [h] at reached
      exact absurd (of_decide_eq_true reached) (by omega)

theorem State.fireOwed_of_unmet (unmet : s.owed.fireFrom = none ∨ s.member.state ≠ .member) : s.fireOwed = s := by
  unfold fireOwed
  split
  · rfl
  · rename_i c h
    rcases unmet with none | other
    · simp [none] at h
    · exact if_neg other

theorem State.endPulse_of_unmet {l : Fin 8} (unmet : ∀ high e, s.out.lines[l] = .driven high (some e) → e.reached = false) :
    s.endPulse l = s := by
  unfold endPulse
  split
  · rename_i high e h
    simp [unmet high e h]
  · rfl

theorem State.qualify_of_unmet {i : Fin 8} (atOnce : Bool)
    (unmet : ∀ f, s.cap.filters = some f → (f[i]).first = none ∨ (f[i]).run < (s.config.inputs[i]).filter) :
    s.qualify atOnce i = s := by
  unfold qualify
  split
  · rfl
  · rename_i filters h
    dsimp only
    split
    · rfl
    · rename_i first hf
      rcases unmet filters h with none | short
      · exact absurd (none.symm.trans hf) (by simp)
      · exact if_neg (by omega)

theorem State.insertNext_of_nil (h : s.owed.insertions = []) : s.insertNext = s := by simp [insertNext, h]

theorem State.takeHandedOn_of_nil (h : s.owed.exchange = []) : s.takeHandedOn = s := by simp [takeHandedOn, h]

end

/-! ### The rows of the cluster line -/

section

variable {s : State}

/-- LINE_IDLE puts the receiver in step and begins an idle period (R6). -/
theorem exec_lineIdle_begins (inStep : s.line.receiver = .seek ∨ s.line.receiver = .wait) (idle : s.cont.idle = false) :
    exec .lineIdle s = .next ((s.withLine { s.line with receiver := .wait, dominantRun := 0, recessiveRun := 12 }).withCont
      { s.cont with idle := true, slot := none, offered := none }) := by
  have met : ((s.line.receiver = .seek || s.line.receiver = .wait) && !s.cont.idle) = true := by simp [inStep, idle]
  exact if_pos met

theorem exec_lineIdle_unmet (unmet : s.cont.idle = true ∨ (s.line.receiver ≠ .seek ∧ s.line.receiver ≠ .wait)) :
    exec .lineIdle s = .next s := by
  have : ((s.line.receiver = .seek || s.line.receiver = .wait) && !s.cont.idle) = false := by
    rcases unmet with h | h <;> simp [h]
  simp [exec, execLineIdle, this]

theorem exec_idleSlot_unmet (unmet : s.cont.idle = false) : exec .idleSlot s = .next s := by simp [exec, execIdleSlot, unmet]

/-- START_OF_FRAME takes the SOF record and the first start bit, and ends the idle period (R8, R22, R26). -/
theorem exec_startOfFrame_wait (waits : s.line.receiver = .wait) :
    exec .startOfFrame s = .next (s.withLine { s.line with
      receiver := .receive, sof := some s.sofNow, frame := some .started, dominantRun := 1, recessiveRun := 0 }).endIdle :=
  if_pos waits

theorem exec_startOfFrame_unmet (unmet : s.line.receiver ≠ .wait) : exec .startOfFrame s = .next s := if_neg unmet

/-- FRAME_TRUNCATED ends a frame between two of its characters (R6, R9). -/
theorem exec_frameTruncated_gap {f : PartialFrame} (receives : s.line.receiver = .receive) (frame : s.line.frame = some f)
    (gap : f.bits = []) : exec .frameTruncated s = .next (s.truncate f []) := by
  simp [exec, execFrameTruncated, receives, frame, gap]

theorem exec_frameTruncated_unmet (unmet : s.line.receiver ≠ .receive ∨ ∀ f, s.line.frame = some f → f.bits ≠ []) :
    exec .frameTruncated s = .next s := by
  simp only [exec, execFrameTruncated]
  split
  · rename_i f receives frame
    rcases unmet with other | within
    · exact absurd receives other
    · exact if_neg (within f frame)
  · rfl

/-- The samples of FRAME_COMPLETION go on with the frame in hand, whichever way a claim is taken (R7). -/
theorem exec_frameCompletion_receive {f : PartialFrame} {event : FrameEvent} {samples : List Bool}
    (of : State.samplesOf event samples) (receives : s.line.receiver = .receive) (frame : s.line.frame = some f) :
    ∃ atOnce, exec (.frameCompletion event) s = .next (s.receive atOnce f samples) := by
  rcases of with rfl | rfl
  · exact ⟨true, by simp [exec, execFrameCompletion, State.complete, receives, frame]⟩
  · exact ⟨false, by simp [exec, execFrameCompletion, State.complete, receives, frame]⟩

theorem State.complete_of_unmet (atOnce : Bool) (samples : List Bool) (unmet : s.line.receiver ≠ .receive ∨ s.line.frame = none) :
    s.complete atOnce samples = s := by
  unfold State.complete
  split
  · rename_i f receives frame
    rcases unmet with other | none
    · exact absurd receives other
    · simp [none] at frame
  · rfl

theorem exec_frameCompletion_unmet {event : FrameEvent} {samples : List Bool} (of : State.samplesOf event samples)
    (unmet : s.line.receiver ≠ .receive ∨ s.line.frame = none) : exec (.frameCompletion event) s = .next s := by
  rcases of with rfl | rfl
  · exact congrArg _ (State.complete_of_unmet true samples unmet)
  · exact congrArg _ (State.complete_of_unmet false samples unmet)

/-- TRANSMISSION_SUCCESS ends SEND and the attempt (R12, R31). -/
theorem exec_transmissionSuccess_send (sends : s.line.receiver = .send) : exec .transmissionSuccess s =
    .next (s.endSend (State.receiverAfterSend s.line.afterSend) 0).transmissionSucceeded := if_pos sends

theorem exec_transmissionSuccess_unmet (unmet : s.line.receiver ≠ .send) : exec .transmissionSuccess s = .next s := if_neg unmet

/-- READBACK_MISMATCH at a bit sent recessive fails the attempt first (R29). -/
theorem exec_readbackMismatch_send {bit : Nat} (sends : s.line.receiver = .send)
    (recessive : (bitsOfFrame s.line.sending)[bit]? = some true) :
    exec (.readbackMismatch bit) s = .next (s.transmissionFailed.afterMismatch bit) := by
  simp [exec, execReadbackMismatch, sends, recessive]

theorem exec_readbackMismatch_unmet {bit : Nat}
    (unmet : s.line.receiver ≠ .send ∨ (bitsOfFrame s.line.sending)[bit]? ≠ some true) :
    exec (.readbackMismatch bit) s = .next s := by
  rcases unmet with h | h <;> simp [exec, execReadbackMismatch, h]

/-- LINE_STUCK outside SEND (R13). -/
theorem exec_lineStuck_listening (state : s.line.receiver = .seek ∨ s.line.receiver = .wait ∨ s.line.receiver = .receive) :
    exec .lineStuck s = .next s.stick := by
  rcases state with h | h | h <;> simp [exec, execLineStuck, h]

/-- LINE_STUCK in SEND, of a frame that is to end in OFF (R17, log 11). -/
theorem exec_lineStuck_send_off (sends : s.line.receiver = .send) (off : s.line.afterSend = .off) :
    exec .lineStuck s = .next (s.transmissionFailed.endSend .off 0) := by
  simp [exec, execLineStuck, sends, off]

/-- LINE_STUCK in SEND otherwise (R13, R29, log 11). -/
theorem exec_lineStuck_send (sends : s.line.receiver = .send) (stays : s.line.afterSend ≠ .off) :
    exec .lineStuck s = .next s.transmissionFailed.stick := by
  cases h : s.line.afterSend <;> simp_all [exec, execLineStuck]

theorem exec_lineStuck_unmet (unmet : s.line.receiver = .off ∨ s.line.receiver = .stuck) : exec .lineStuck s = .next s := by
  rcases unmet with h | h <;> simp [exec, execLineStuck, h]

/-- STUCK_RUN_END takes the receiver to SEEK (R13). -/
theorem exec_stuckRunEnd_stuck (stuck : s.line.receiver = .stuck) :
    exec .stuckRunEnd s = .next (s.withLine { s.line with receiver := .seek, dominantRun := 0, recessiveRun := 0 }) := if_pos stuck

theorem exec_stuckRunEnd_unmet (unmet : s.line.receiver ≠ .stuck) : exec .stuckRunEnd s = .next s := if_neg unmet

/-- LINE_RELEASED clears the mute with a LINE report (R14). -/
theorem exec_lineReleased_muted (muted : s.line.muted = true) (state : s.line.receiver = .wait ∨ s.line.receiver = .seek) :
    exec .lineReleased s = .next ((s.withLine { s.line with muted := false, recessiveRun := 48 }).report (.line .released)) := by
  have met : (s.line.muted && (s.line.receiver = .wait || s.line.receiver = .seek)) = true := by simp [muted, state]
  exact if_pos met

theorem exec_lineReleased_unmet (unmet : s.line.muted = false ∨ (s.line.receiver ≠ .wait ∧ s.line.receiver ≠ .seek)) :
    exec .lineReleased s = .next s := by
  have : (s.line.muted && (s.line.receiver = .wait || s.line.receiver = .seek)) = false := by
    rcases unmet with h | h <;> simp [h]
  simp [exec, execLineReleased, this]

/-- REJECTED_START_EDGE in SEEK restarts the idle count (R1). -/
theorem exec_rejectedStartEdge_seek (seeks : s.line.receiver = .seek) :
    exec .rejectedStartEdge s = .next (s.withLine { s.line with dominantRun := 0, recessiveRun := 0 }) := by
  simp [exec, execRejectedStartEdge, seeks]

/-- REJECTED_START_EDGE in WAIT ends the idle period (R1, R22). -/
theorem exec_rejectedStartEdge_wait (waits : s.line.receiver = .wait) :
    exec .rejectedStartEdge s = .next (s.withLine { s.line with dominantRun := 0, recessiveRun := 0 }).endIdle := by
  simp [exec, execRejectedStartEdge, waits]

/-- REJECTED_START_EDGE of the edge that has just taken the receiver from WAIT puts it back (log 10). -/
theorem exec_rejectedStartEdge_started (receives : s.line.receiver = .receive) (frame : s.line.frame = some .started) :
    exec .rejectedStartEdge s = .next (s.withLine { s.line with
      receiver := .wait, sof := none, frame := none, dominantRun := 0, recessiveRun := 0 }) := by
  simp [exec, execRejectedStartEdge, receives, frame]

/-- REJECTED_START_EDGE between two characters of a frame restarts the idle count, and the gap goes on (log 10). -/
theorem exec_rejectedStartEdge_gap {f : PartialFrame} (receives : s.line.receiver = .receive) (frame : s.line.frame = some f)
    (gap : f.bits = []) :
    exec .rejectedStartEdge s = .next (s.withLine { s.line with dominantRun := 0, recessiveRun := 0 }) := by
  have : f ≠ .started := fun h => by simp [h, PartialFrame.started] at gap
  simp [exec, execRejectedStartEdge, receives, frame, this, gap]

/-- REJECTED_START_EDGE within a character changes nothing (log 10). -/
theorem exec_rejectedStartEdge_within (receives : s.line.receiver = .receive) (started : s.line.frame ≠ some .started)
    (within : ∀ f, s.line.frame = some f → f.bits ≠ []) : exec .rejectedStartEdge s = .next s := by
  have : s.line.frame.any (fun f => f.bits = []) = false := by
    cases h : s.line.frame with
    | none => rfl
    | some f => simpa using within f h
  simp [exec, execRejectedStartEdge, receives, started, this]

theorem exec_rejectedStartEdge_unmet (unmet : s.line.receiver = .off ∨ s.line.receiver = .send ∨ s.line.receiver = .stuck) :
    exec .rejectedStartEdge s = .next s := by
  rcases unmet with h | h | h <;> simp [exec, execRejectedStartEdge, h]

end

/-! ### The rows of the service port -/

section

variable {s : State}

theorem exec_transactionBegin_unmet (unmet : s.port.transaction ≠ none) : exec .transactionBegin s = .next s := by
  simp only [exec, execTransactionBegin]
  split
  · rename_i h; exact absurd h unmet
  · rfl

theorem exec_transactionEnd_unmet (bits cut : List Bool) (unmet : s.port.transaction = none) :
    exec (.transactionEnd bits cut) s = .next s := by simp [exec, execTransactionEnd, unmet]

/-- The command whose execution may come is the current one, from one to sixteen ticks after SEL rise (R172). -/
theorem State.ready_eq_some_iff (c : Command) :
    s.ready = some c ↔ ∃ n, s.port.work = .current c n ∧ 1 ≤ n ∧ n ≤ 16 := by
  unfold State.ready
  cases s.port.work with
  | idle => simp
  | refused r => simp
  | current held n =>
    have places : Config.executionTicks = 16 := rfl
    constructor
    · intro h
      obtain ⟨inTime, same⟩ := Option.ite_none_right_eq_some.1 h
      simp only [Bool.and_eq_true, decide_eq_true_eq, places] at inTime
      exact ⟨n, by rw [Option.some.inj same], inTime⟩
    · rintro ⟨m, same, inTime⟩
      obtain ⟨rfl, rfl⟩ := PortWork.current.inj same
      simp [places, inTime]

/-- The row of a command executes no other command than one of its name (R172, log 5). -/
theorem exec_row_unmet (c : Command) (unmet : ∀ current, s.ready = some current → current.row ≠ c.row) :
    exec c.row s = .next s := by
  cases h : s.ready with
  | none =>
    cases c <;> simp [Command.row, exec, execNop, execStatus, execConfigure, execStart, execStop, execPost, execAmend, execCancel,
      execFind, execReadLog, execReadReports, execReadPeers, execSnapshot, execDrive, h]
  | some current =>
    have other := unmet current h
    cases c <;> simp only [Command.row, exec, execNop, execStatus, execConfigure, execStart, execStop, execPost, execAmend, execCancel,
      execFind, execReadLog, execReadReports, execReadPeers, execSnapshot, execDrive, h] <;>
    cases current <;> first | rfl | exact absurd rfl other

end

/-! ### The statements -/

/-- Settles O3: every row by its equation for an event that has not come about. -/
theorem unmetEventsChangeNothing : Obligations.UnmetEventsChangeNothing := by
  unfold Obligations.UnmetEventsChangeNothing
  intro s
  refine ⟨fun unmet turn => ?boundary, fun none => ?verdict, fun unmet => ?window, fun unmet => ?firing, fun l unmet => ?pulse,
    fun i unmet => ?edge, fun nil => ?insertion, fun nil => ?exchange, exec_idleSlot_unmet, fun off => ?off, exec_lineIdle_unmet,
    exec_startOfFrame_unmet, exec_frameTruncated_unmet, fun unmet _ _ of => exec_frameCompletion_unmet of unmet,
    fun unmet => ⟨exec_transmissionSuccess_unmet unmet, fun _ => exec_readbackMismatch_unmet (.inl unmet)⟩,
    fun _ unmet => exec_readbackMismatch_unmet (.inr unmet), fun unmet => exec_rejectedStartEdge_unmet (.inr unmet),
    exec_rejectedStartEdge_within, exec_stuckRunEnd_unmet, fun stuck => exec_lineStuck_unmet (.inr stuck), exec_lineReleased_unmet,
    exec_transactionBegin_unmet, fun unmet bits cut => exec_transactionEnd_unmet bits cut unmet, fun c unmet => ?command⟩
  case boundary =>
    have unmet := State.meetsBoundary_eq_false unmet
    rw [exec_roundBoundary_whole, exec_roundBoundary_evaluation, State.boundaryOwed_of_unmet turn unmet,
      State.evaluationOwed_of_unmet turn unmet]
    exact ⟨rfl, rfl⟩
  case verdict => rw [exec_roundBoundary_verdict, State.takeHandedVerdict_of_none none]
  case window => rw [exec_listenWindowExpiry, State.foundOwed_of_unmet unmet]
  case firing => rw [exec_firing, State.fireOwed_of_unmet unmet]
  case pulse => rw [exec_pulseEnd, State.endPulse_of_unmet unmet]
  case edge =>
    rw [exec_edgeQualified_whole, exec_edgeQualified_handOver, State.qualify_of_unmet true unmet, State.qualify_of_unmet false unmet]
    exact ⟨rfl, rfl⟩
  case insertion => rw [exec_edgeQualified_insertion, State.insertNext_of_nil nil]
  case exchange => rw [exec_frameCompletion_next, State.takeHandedOn_of_nil nil]
  case off =>
    exact ⟨exec_lineIdle_unmet (.inr (by simp [off])), exec_startOfFrame_unmet (by simp [off]),
      exec_frameTruncated_unmet (.inl (by simp [off])), fun _ _ of => exec_frameCompletion_unmet of (.inl (by simp [off])),
      exec_transmissionSuccess_unmet (by simp [off]), fun _ => exec_readbackMismatch_unmet (.inl (by simp [off])),
      exec_lineStuck_unmet (.inl off), exec_stuckRunEnd_unmet (by simp [off]), exec_lineReleased_unmet (.inr (by simp [off])),
      exec_rejectedStartEdge_unmet (.inl off)⟩
  case command =>
    refine exec_row_unmet c fun current ready => ?_
    obtain ⟨n, work, least, most⟩ := (State.ready_eq_some_iff current).1 ready
    rcases unmet current n work with other | zero | late
    · exact other
    · omega
    · omega

/-- Settles O22: the rows of idle and of start edges by their equations, and the run at a truncation by rows alone. -/
theorem idleAndStartEdges : Obligations.IdleAndStartEdges := by
  unfold Obligations.IdleAndStartEdges
  intro s
  refine ⟨exec_lineIdle_begins, exec_startOfFrame_wait, exec_rejectedStartEdge_wait, exec_rejectedStartEdge_started,
    fun f receives frame gap => ⟨exec_rejectedStartEdge_gap receives frame gap, _, exec_frameTruncated_gap receives frame gap, ?_⟩,
    exec_rejectedStartEdge_within, exec_rejectedStartEdge_seek⟩
  exact s.runAtGap_of_gap f 0 11 gap

end Sys2Proof.Machine
end

section
/-! PROOFS. A round boundary: the reports it makes in their order (R10, R60, R61, R75), what its verdict makes of the station state
(R62–R64, R83–R86), and the teardown into LISTEN (R91). -/

namespace Sys2Proof.Machine

/-! ### The reports of a boundary -/

/-- The LINE_ERRORS report at a place among the reports of a boundary, when the row's operand gives that place (R10, log 7). -/
def State.errorReports (s : State) (place turn : LineTurn) : List Report :=
  if place = turn ∧ 0 < s.line.errors then [{ detail := .lineErrors s.line.errors, stamp := s.now, unsynced := false }] else []

/-- The PEER reports of an evaluation, in order of station number (R60). -/
def State.peerReports (s : State) (after : Vector PeerRecord 16) : List Report :=
  (List.finRange 16).filterMap fun i =>
    if (s.sync.peers[i]).state = (after[i]).state then none
    else some (s.stamped (.peer i (s.sync.peers[i]).state (after[i]).state ((s.sync.peers[i]).beacon.map (·.offset))))

/-- The ALONE report of an evaluation (R61). -/
def State.aloneReports (s : State) (after : Vector PeerRecord 16) : List Report :=
  if s.member.state = .member ∧ s.member.alone ≠ after.toList.all fun r => r.state ≠ .synced then
    [s.stamped (.alone (after.toList.all fun r => r.state ≠ .synced))]
  else []

/-- The reports of a teardown into LISTEN (R75, R116, log 17). -/
def State.departureReports (s : State) (cause : Cause) : List Report :=
  s.waitingReports ++ [{ detail := .state s.member.state .listen cause, stamp := s.clock.ticks, unsynced := true }]
    ++ if s.sched.queue = [] then [] else
      [{ detail := .flushed s.sched.queue.length cause, stamp := s.clock.ticks, unsynced := true }]

/-- The reports of the change of state that a verdict makes, judged against the state it finds (R66, R75). -/
def State.changeReports (s : State) (v : Verdict) : List Report :=
  match v, s.member.state with
  | .join, .joining => [s.stamped (.state .joining .member .joined)]
  | .joinFailure, .joining => s.departureReports .joinFailed
  | .split, .member => s.departureReports .split
  | _, _ => []

section

variable (s : State) (turn : LineTurn) (after : Vector PeerRecord 16)

theorem State.boundaryReports_eq (change : List Report) : s.boundaryReports turn after change =
    s.errorReports .first turn ++ s.peerReports after ++ s.aloneReports after ++ s.errorReports .middle turn ++ change
      ++ s.errorReports .last turn := rfl

/-- A boundary makes one LINE_ERRORS report, in its turn, when errors were counted (R10). -/
theorem State.errorReports_self : s.errorReports turn turn = if s.line.errors = 0 then []
    else [{ detail := .lineErrors s.line.errors, stamp := s.now, unsynced := false }] := by
  unfold errorReports
  by_cases h : s.line.errors = 0
  · simp [h]
  · simp [h, Nat.pos_of_ne_zero h]

theorem State.errorReports_of_ne {place turn : LineTurn} (h : place ≠ turn) : s.errorReports place turn = [] := by
  simp [errorReports, h]

variable {s after}

theorem State.detail_of_mem_peerReports {r : Report} (h : r ∈ s.peerReports after) : ∃ i old new offset, r.detail = .peer i old new offset := by
  obtain ⟨i, _, h⟩ := List.mem_filterMap.1 h
  obtain ⟨_, made⟩ := Option.ite_none_left_eq_some.1 h
  exact ⟨_, _, _, _, congrArg Report.detail (Option.some.inj made).symm⟩

theorem State.detail_of_mem_aloneReports {r : Report} (h : r ∈ s.aloneReports after) : ∃ a, r.detail = .alone a := by
  unfold aloneReports at h
  split at h
  · exact ⟨_, congrArg Report.detail (List.mem_singleton.1 h)⟩
  · cases h

theorem State.detail_of_mem_waitingReports {r : Report} (h : r ∈ s.waitingReports) : ∃ k d, r.detail = .notSent k d := by
  obtain ⟨_, _, h⟩ := List.mem_flatMap.1 h
  obtain ⟨_, _, rfl⟩ := List.mem_map.1 h
  exact ⟨_, _, rfl⟩

theorem State.detail_of_mem_errorReports {place : LineTurn} {r : Report} (h : r ∈ s.errorReports place turn) :
    ∃ n, r.detail = .lineErrors n := by
  unfold errorReports at h
  split at h
  · exact ⟨_, congrArg Report.detail (List.mem_singleton.1 h)⟩
  · cases h

theorem State.detail_of_mem_departureReports {cause : Cause} {r : Report} (h : r ∈ s.departureReports cause) :
    (∃ k d, r.detail = .notSent k d) ∨ r.detail = .state s.member.state .listen cause ∨ ∃ n, r.detail = .flushed n cause := by
  unfold departureReports at h
  rcases List.mem_append.1 h with h | h
  · rcases List.mem_append.1 h with h | h
    · exact .inl (detail_of_mem_waitingReports h)
    · exact .inr (.inl (congrArg Report.detail (List.mem_singleton.1 h)))
  · split at h
    · cases h
    · exact .inr (.inr ⟨_, congrArg Report.detail (List.mem_singleton.1 h)⟩)

/-- No report of a change of state is a LINE_ERRORS report. -/
theorem State.isLineErrors_of_mem_changeReports {v : Verdict} {r : Report} (h : r ∈ s.changeReports v) : r.isLineErrors = false := by
  have departs : ∀ cause, r ∈ s.departureReports cause → r.isLineErrors = false := by
    intro cause h
    rcases detail_of_mem_departureReports h with ⟨k, d, e⟩ | e | ⟨n, e⟩ <;> simp [Report.isLineErrors, e]
  unfold changeReports at h
  split at h
  · simp [List.mem_singleton.1 h, Report.isLineErrors, stamped]
  · exact departs _ h
  · exact departs _ h
  · cases h

end

/-! ### The STATE reports among reports -/

/-- The details of the STATE reports in a list, in their order. -/
def stateDetails (reports : List Report) : List ReportDetail := (reports.map (·.detail)).filter (·.isState)

@[simp] theorem stateDetails_append (a b : List Report) : stateDetails (a ++ b) = stateDetails a ++ stateDetails b := by
  simp [stateDetails]

theorem stateDetails_eq_nil {l : List Report} (h : ∀ r ∈ l, r.detail.isState = false) : stateDetails l = [] := by
  simpa [stateDetails] using h

section

variable (s : State) (turn : LineTurn) (after : Vector PeerRecord 16)

@[simp] theorem State.stateDetails_errorReports (place : LineTurn) : stateDetails (s.errorReports place turn) = [] :=
  stateDetails_eq_nil fun r h => by obtain ⟨n, e⟩ := detail_of_mem_errorReports turn h; simp [e, ReportDetail.isState]

@[simp] theorem State.stateDetails_peerReports : stateDetails (s.peerReports after) = [] :=
  stateDetails_eq_nil fun r h => by obtain ⟨_, _, _, _, e⟩ := detail_of_mem_peerReports h; simp [e, ReportDetail.isState]

@[simp] theorem State.stateDetails_aloneReports : stateDetails (s.aloneReports after) = [] :=
  stateDetails_eq_nil fun r h => by obtain ⟨_, e⟩ := detail_of_mem_aloneReports h; simp [e, ReportDetail.isState]

@[simp] theorem State.stateDetails_waitingReports : stateDetails s.waitingReports = [] :=
  stateDetails_eq_nil fun r h => by obtain ⟨_, _, e⟩ := detail_of_mem_waitingReports h; simp [e, ReportDetail.isState]

/-- The STATE reports of a boundary are those of its change of state. -/
@[simp] theorem State.stateDetails_boundaryReports (change : List Report) :
    stateDetails (s.boundaryReports turn after change) = stateDetails change := by
  simp [boundaryReports_eq]

@[simp] theorem State.stateDetails_departureReports (cause : Cause) :
    stateDetails (s.departureReports cause) = [.state s.member.state .listen cause] := by
  have told : stateDetails [{ detail := .state s.member.state .listen cause, stamp := s.clock.ticks, unsynced := true }]
    = [.state s.member.state .listen cause] := rfl
  unfold departureReports
  split
  · simp [told]
  · simp only [stateDetails_append, stateDetails_waitingReports, told]
    rfl

end

/-! ### The report queue after each stage of a boundary -/

section

variable (s : State) (turn : LineTurn)

theorem State.reports_lineErrors (now : LineTurn) (errors : Nat) (stamp : Time) :
    (s.lineErrors now turn errors stamp).port.reports =
      (if now = turn ∧ 0 < errors then [({ detail := .lineErrors errors, stamp := stamp, unsynced := false } : Report)]
        else []).foldl arrive s.port.reports := by
  by_cases h : now = turn ∧ 0 < errors <;> simp [lineErrors, h]

theorem State.reports_setAlone (alone : Bool) :
    (s.setAlone alone).port.reports =
      (if s.member.state = .member ∧ s.member.alone ≠ alone then [s.stamped (.alone alone)] else []).foldl arrive s.port.reports := by
  by_cases h : s.member.state = .member ∧ s.member.alone ≠ alone
  · simp only [setAlone, Bool.and_eq_true, decide_eq_true_eq, h, not_false_eq_true, and_self, if_true, ne_eq]
    rfl
  · simp only [setAlone, if_neg h, Bool.and_eq_true, decide_eq_true_eq]
    rfl

theorem State.reports_reportPeers (before after : Vector PeerRecord 16) :
    (s.reportPeers before after).port.reports =
      ((List.finRange 16).filterMap fun i => if (before[i]).state = (after[i]).state then none
        else some (s.stamped (.peer i (before[i]).state (after[i]).state ((after[i]).beacon.map (·.offset))))).foldl arrive
          s.port.reports := by
  unfold reportPeers
  induction List.finRange 16 generalizing s with
  | nil => rfl
  | cons i rest ih =>
    rw [List.foldl_cons, ih]
    by_cases h : (before[i]).state = (after[i]).state
    · simp only [h, if_true, List.filterMap_cons]
    · simp only [h, if_false, List.filterMap_cons, List.foldl_cons]
      rfl

/-- An evaluation keeps the beacon fields and clears fresh (R59). -/
theorem PeerRecord.evaluated_keeps (bound limit : Nat) (r : PeerRecord) :
    (r.evaluated bound limit).beacon = r.beacon ∧ (r.evaluated bound limit).fresh = false := by
  unfold evaluated
  split <;> exact ⟨rfl, rfl⟩

theorem State.getElem_evaluatedPeers (i : Fin 16) :
    s.evaluatedPeers[i] = (s.sync.peers[i]).evaluated s.config.outlierBound.toNat s.config.lostLimit := by
  simp [evaluatedPeers]

/-- The reports of an evaluation up to the alone flag (R60, R61). -/
theorem State.reports_evaluate :
    s.evaluate.port.reports = (s.peerReports s.evaluatedPeers ++ s.aloneReports s.evaluatedPeers).foldl arrive s.port.reports := by
  have offsets : ∀ i : Fin 16, (s.evaluatedPeers[i]).beacon = (s.sync.peers[i]).beacon := fun i => by
    rw [s.getElem_evaluatedPeers i]
    exact (PeerRecord.evaluated_keeps _ _ _).1
  have flag : ∀ t : State, t.sync.peers = s.evaluatedPeers →
      t.noneSynced = s.evaluatedPeers.toList.all fun r => r.state ≠ .synced := fun t h => by rw [noneSynced, h]
  unfold evaluate
  dsimp only
  rw [reports_setAlone, reports_reportPeers, List.foldl_append, flag _ (by simp)]
  simp only [offsets, aloneReports, member_reportPeers, member_withSync]
  congr 1
  simp only [stamped, stampTime, unsynced, valid, clock_reportPeers, clock_withSync]

/-- The reports that an evaluation makes before the membership controller takes its verdict. -/
theorem State.reports_evaluation : (s.evaluation turn).port.reports =
    (s.errorReports .first turn ++ s.peerReports s.evaluatedPeers ++ s.aloneReports s.evaluatedPeers
      ++ s.errorReports .middle turn).foldl arrive s.port.reports := by
  obtain ⟨_, _, peers, _⟩ := s.verdict_congr (t := (s.beginBoundary turn).lineErrors .first turn s.line.errors s.now)
    (by simp) (by simp) (by simp)
  simp only [evaluation, port_requestBeacon, port_setCorrection, reports_lineErrors, reports_evaluate, peers, port_beginBoundary,
    List.foldl_append, errorReports]
  simp only [peerReports, aloneReports, stamped, stampTime, unsynced, valid, sync_lineErrors, clock_lineErrors, member_lineErrors,
    sync_beginBoundary, clock_beginBoundary, member_beginBoundary]

end

end Sys2Proof.Machine
end

section
/-! PROOFS. What the verdict of an evaluation makes of the station (R62–R64, R83–R86, R91), and the statements on the round boundary. -/

namespace Sys2Proof.Machine

/-! ### The verdict -/

/-- A verdict suits the station state that the evaluation has found (R62–R64). -/
theorem State.verdict_cases (s : State) :
    s.verdict = .none ∨ (s.verdict = .join ∧ s.member.state = .joining) ∨ (s.verdict = .joinFailure ∧ s.member.state = .joining)
      ∨ (s.verdict = .split ∧ s.member.state = .member) := by
  unfold verdict
  dsimp only
  cases s.member.state with
  | member => by_cases h : s.config.splitLimit ≤ s.evaluatedCounts.1 <;> simp [h]
  | joining =>
    by_cases test : s.joinTest = true
    · simp [test]
    · by_cases limit : 2 * s.config.listenRounds ≤ s.evaluatedCounts.2.1 ∨ s.config.lostLimit ≤ s.evaluatedCounts.2.2 <;>
        simp [test, limit]
  | unconfigured | ready | listen | stopped => simp

/-- A verdict has an effect in the state that it suits, and is void elsewhere (R66, R73). -/
theorem Verdict.effect_cases (v : Verdict) (state : StationState) :
    (v = .join ∧ state = .joining) ∨ (v = .joinFailure ∧ state = .joining) ∨ (v = .split ∧ state = .member)
      ∨ (v = .none ∨ (v = .split ∧ state ≠ .member) ∨ ((v = .join ∨ v = .joinFailure) ∧ state ≠ .joining)) := by
  cases v with
  | none => simp
  | split => by_cases h : state = .member <;> simp [h]
  | join | joinFailure => by_cases h : state = .joining <;> simp [h]

section

variable {s : State}

theorem State.takeVerdict_join (h : s.member.state = .joining) : s.takeVerdict .join = s.changeState .member .joined := by
  simp [takeVerdict, join, h]

theorem State.takeVerdict_joinFailure (h : s.member.state = .joining) :
    s.takeVerdict .joinFailure = s.teardownToListen .joinFailed := by simp [takeVerdict, h]

theorem State.takeVerdict_split (h : s.member.state = .member) : s.takeVerdict .split = s.teardownToListen .split := by
  simp [takeVerdict, h]

/-- A verdict to which the station state gives no effect is void (R73, R74). -/
theorem State.takeVerdict_void {v : Verdict} (void : v = .none ∨ (v = .split ∧ s.member.state ≠ .member)
    ∨ ((v = .join ∨ v = .joinFailure) ∧ s.member.state ≠ .joining)) : s.takeVerdict v = s := by
  unfold takeVerdict
  split <;> simp_all

theorem State.changeReports_join (h : s.member.state = .joining) :
    s.changeReports .join = [s.stamped (.state .joining .member .joined)] := by simp [changeReports, h]

theorem State.changeReports_joinFailure (h : s.member.state = .joining) :
    s.changeReports .joinFailure = s.departureReports .joinFailed := by simp [changeReports, h]

theorem State.changeReports_split (h : s.member.state = .member) : s.changeReports .split = s.departureReports .split := by
  simp [changeReports, h]

theorem State.changeReports_void {v : Verdict} (void : v = .none ∨ (v = .split ∧ s.member.state ≠ .member)
    ∨ ((v = .join ∨ v = .joinFailure) ∧ s.member.state ≠ .joining)) : s.changeReports v = [] := by
  unfold changeReports
  split <;> simp_all

end

/-- The state in which the membership controller takes the verdict of a boundary taken whole. -/
def State.evaluated (s : State) (turn : LineTurn) : State := (s.evaluation turn).dropVerdict turn

section

variable (s : State) (turn : LineTurn)

@[simp] theorem State.member_evaluated : (s.evaluated turn).member
    = { s.member with alone := s.evaluatedPeers.toList.all fun r => r.state ≠ .synced } := by simp [evaluated]
@[simp] theorem State.line_evaluated : (s.evaluated turn).line = { s.line with errors := 0 } := by
  cases turn <;> simp [evaluated]
@[simp] theorem State.sync_evaluated : (s.evaluated turn).sync
    = { peers := s.evaluatedPeers, splitCount := s.evaluatedCounts.1, joinRounds := s.evaluatedCounts.2.1,
        noFresh := s.evaluatedCounts.2.2 } := by simp [evaluated]
@[simp] theorem State.owed_evaluated : (s.evaluated turn).owed = { s.owed with boundary := false, verdict := none } := by
  simp [evaluated]
@[simp] theorem State.cluster_evaluated : (s.evaluated turn).clock.cluster = s.clock.cluster := by simp [evaluated]
@[simp] theorem State.ticks_evaluated : (s.evaluated turn).clock.ticks = s.clock.ticks := by simp [evaluated]
@[simp] theorem State.sched_evaluated : (s.evaluated turn).sched = s.sched := by simp [evaluated]
@[simp] theorem State.out_evaluated : (s.evaluated turn).out = s.out := by simp [evaluated]
@[simp] theorem State.exch_evaluated : (s.evaluated turn).exch = s.exch := by simp [evaluated]
@[simp] theorem State.cap_evaluated : (s.evaluated turn).cap = s.cap := by simp [evaluated]
@[simp] theorem State.cfg_evaluated : (s.evaluated turn).cfg = s.cfg := by simp [evaluated]
@[simp] theorem State.pins_evaluated : (s.evaluated turn).pins = s.pins := by simp [evaluated]
@[simp] theorem State.port_evaluated : (s.evaluated turn).port = (s.evaluation turn).port := rfl
@[simp] theorem State.waitingReports_evaluated : (s.evaluated turn).waitingReports = s.waitingReports := by simp [waitingReports]

@[simp] theorem State.stamped_evaluated (d : ReportDetail) : (s.evaluated turn).stamped d = s.stamped d := by
  simp [stamped, stampTime, unsynced, valid]

@[simp] theorem State.changeReports_evaluated (v : Verdict) : (s.evaluated turn).changeReports v = s.changeReports v := by
  simp [changeReports, departureReports]

/-- A boundary is its evaluation, the verdict, and the line unit's turn when that is the last (R10, R66). -/
theorem State.boundary_eq : s.boundary turn = ((s.evaluated turn).takeVerdict s.verdict).lineErrors .last turn
    (s.evaluation turn).line.errors (s.evaluation turn).now := by
  simp [boundary, takeHandedVerdict, evaluated]

end

/-! ### The reports of a verdict and of a boundary -/

/-- The reports of a teardown into LISTEN, when no LINE_ERRORS report is put off (R75, R116). -/
theorem State.reports_teardownToListen (s : State) (cause : Cause) (handed : s.owed.verdict = none) :
    (s.teardownToListen cause).port.reports = (s.departureReports cause).foldl arrive s.port.reports := by
  obtain ⟨_, _, _, _, _, _, _, _, _, reports⟩ := s.teardownToListen_blocks cause
  rw [reports, s.putOffErrors_of_no_verdict handed]
  unfold departureReports
  split <;> simp_all

theorem State.reports_takeVerdict (s : State) (v : Verdict) (handed : s.owed.verdict = none) :
    (s.takeVerdict v).port.reports = (s.changeReports v).foldl arrive s.port.reports := by
  rcases v.effect_cases s.member.state with ⟨rfl, h⟩ | ⟨rfl, h⟩ | ⟨rfl, h⟩ | void
  · rw [takeVerdict_join h, changeReports_join h]
    simp [h, stamped]
  · rw [takeVerdict_joinFailure h, changeReports_joinFailure h, s.reports_teardownToListen _ handed]
  · rw [takeVerdict_split h, changeReports_split h, s.reports_teardownToListen _ handed]
  · rw [takeVerdict_void void, changeReports_void void]
    rfl

/-- The reports of a boundary taken whole, in their order (R10, R60, R61, R75). -/
theorem State.reports_boundary (s : State) (turn : LineTurn) : (s.boundary turn).port.reports =
    (s.boundaryReports turn s.evaluatedPeers (s.changeReports s.verdict)).foldl arrive s.port.reports := by
  have last : ∀ v : State, (v.lineErrors .last turn (s.evaluation turn).line.errors (s.evaluation turn).now).port.reports
      = (s.errorReports .last turn).foldl arrive v.port.reports := by
    intro v
    have now : (s.evaluation turn).now = s.now := by simp [State.now]
    rw [reports_lineErrors, errorReports, now]
    cases turn <;> simp
  rw [boundary_eq, last, reports_takeVerdict _ _ (by simp), changeReports_evaluated, port_evaluated, reports_evaluation,
    boundaryReports_eq]
  simp only [List.foldl_append]

/-! ### What a boundary leaves of each block -/

section

variable (s : State) (turn : LineTurn)

/-- The three outcomes of a boundary: the station stays, joins, or departs into LISTEN (R66). -/
theorem State.takeVerdict_evaluated_cases :
    (s.verdict = .none ∧ (s.evaluated turn).takeVerdict s.verdict = s.evaluated turn)
    ∨ (s.verdict = .join ∧ s.member.state = .joining
      ∧ (s.evaluated turn).takeVerdict s.verdict = (s.evaluated turn).changeState .member .joined)
    ∨ (∃ cause, (s.verdict = .joinFailure ∧ s.member.state = .joining ∧ cause = .joinFailed
        ∨ s.verdict = .split ∧ s.member.state = .member ∧ cause = .split)
      ∧ s.changeReports s.verdict = s.departureReports cause
      ∧ (s.evaluated turn).takeVerdict s.verdict = (s.evaluated turn).teardownToListen cause) := by
  rcases s.verdict_cases with h | ⟨h, at'⟩ | ⟨h, at'⟩ | ⟨h, at'⟩
  · exact .inl ⟨h, by rw [h, takeVerdict_void (.inl rfl)]⟩
  · exact .inr (.inl ⟨h, at', by rw [h, takeVerdict_join (by simpa using at')]⟩)
  · exact .inr (.inr ⟨.joinFailed, .inl ⟨h, at', rfl⟩, by rw [h, changeReports_joinFailure at'],
      by rw [h, takeVerdict_joinFailure (by simpa using at')]⟩)
  · exact .inr (.inr ⟨.split, .inr ⟨h, at', rfl⟩, by rw [h, changeReports_split at'],
      by rw [h, takeVerdict_split (by simpa using at')]⟩)

end

/-- A row ROUND_BOUNDARY takes the boundary that is owed in JOINING and MEMBER (R42). -/
theorem exec_roundBoundary_meets {s : State} (turn : LineTurn) (owed : s.owed.boundary = true)
    (state : s.member.state = .joining ∨ s.member.state = .member) :
    exec (.roundBoundary (.whole turn)) s = .next (s.boundary turn)
    ∧ exec (.roundBoundary (.evaluation turn)) s = .next (s.evaluation turn) := by
  have meets := State.meetsBoundary_eq_true owed state
  rw [exec_roundBoundary_whole, exec_roundBoundary_evaluation, State.boundaryOwed_of_meets turn meets,
    State.evaluationOwed_of_meets turn meets]
  exact ⟨rfl, rfl⟩

section

variable (s : State) (turn : LineTurn)

/-- A boundary clears the receive-error count and is owed no more (R10, R42). -/
theorem State.boundary_taken :
    (s.boundary turn).line = { s.line with errors := 0 } ∧ (s.boundary turn).owed.boundary = false
    ∧ (s.boundary turn).owed.verdict = none := by
  rw [boundary_eq, line_lineErrors, owed_lineErrors]
  rcases s.takeVerdict_evaluated_cases turn with ⟨_, e⟩ | ⟨_, _, e⟩ | ⟨cause, _, _, e⟩
  · simp [e]
  · simp [e]
  · obtain ⟨_, _, line, _, _, _, _, _, owed, _⟩ := (s.evaluated turn).teardownToListen_blocks cause
    simp [e, line, owed]

end

/-- Settles O8: the reports of a boundary hold the LINE_ERRORS report at the place that the operand gives, and no other. -/
theorem lineErrorsAtBoundary : Obligations.LineErrorsAtBoundary := by
  unfold Obligations.LineErrorsAtBoundary
  intro s turn owed state
  obtain ⟨line, taken, _⟩ := s.boundary_taken turn
  have reports := s.reports_boundary turn
  have exec := (exec_roundBoundary_meets turn owed state).1
  have peers : ∀ r ∈ s.peerReports s.evaluatedPeers, r.isLineErrors = false := fun r h => by
    obtain ⟨_, _, _, _, e⟩ := State.detail_of_mem_peerReports h
    simp [Report.isLineErrors, e]
  have alone : ∀ r ∈ s.aloneReports s.evaluatedPeers, r.isLineErrors = false := fun r h => by
    obtain ⟨_, e⟩ := State.detail_of_mem_aloneReports h
    simp [Report.isLineErrors, e]
  have change : ∀ r ∈ s.changeReports s.verdict, r.isLineErrors = false := fun r h => State.isLineErrors_of_mem_changeReports h
  rw [State.boundaryReports_eq] at reports
  generalize s.peerReports s.evaluatedPeers = P, s.aloneReports s.evaluatedPeers = A, s.changeReports s.verdict = C
    at peers alone change reports
  have others : ∀ r ∈ P ++ A ++ C, r.isLineErrors = false := by
    intro r h
    simp only [List.mem_append] at h
    rcases h with (h | h) | h
    · exact peers r h
    · exact alone r h
    · exact change r h
  cases turn with
  | first =>
    refine ⟨_, [], P ++ A ++ C, exec, by simp [line], taken, ?_, others, fun _ => rfl, nofun⟩
    simpa [State.errorReports_of_ne, State.errorReports_self] using reports
  | middle =>
    refine ⟨_, P ++ A, C, exec, by simp [line], taken, ?_, others, nofun, nofun⟩
    simpa [State.errorReports_of_ne, State.errorReports_self] using reports
  | last =>
    refine ⟨_, P ++ A ++ C, [], exec, by simp [line], taken, ?_, by simpa using others, nofun, fun _ => rfl⟩
    simpa [State.errorReports_of_ne, State.errorReports_self] using reports

end Sys2Proof.Machine
end

section
/-! PROOFS. The peer table that an evaluation leaves (R57, R59), the split round (R62), the teardown of a boundary into LISTEN (R91),
and a STOP before or after a verdict (R74). -/

namespace Sys2Proof.Machine

/-! ### The peer table -/

/-- What an evaluation makes of one record, by its state, its fresh flag and its set (R59). -/
theorem PeerRecord.evaluated_self (bound limit : Nat) {r : PeerRecord} (h : r.state = .self) :
    r.evaluated bound limit = { r with fresh := false } := by simp [evaluated, h]

theorem PeerRecord.evaluated_fresh (bound limit : Nat) {r : PeerRecord} {b : BeaconFields} (other : r.state ≠ .self)
    (fresh : r.fresh = true) (beacon : r.beacon = some b) : r.evaluated bound limit = { r with
      state := if b.body.member = true ∧ b.offset.toInt.natAbs ≤ bound then .synced else .heard, fresh := false, missed := 0 } := by
  have : r.freshBeacon = some b := by simp [freshBeacon, other, fresh, beacon]
  unfold evaluated
  rw [this]
  split
  · rename_i own
    exact absurd own other
  · rename_i same _
    obtain rfl := Option.some.inj same
    simp only [Bool.and_eq_true, decide_eq_true_eq]
    rfl
  all_goals rename_i same; cases same

theorem PeerRecord.evaluated_absent (bound limit : Nat) {r : PeerRecord} (stale : r.fresh = false) (h : r.state = .absent) :
    r.evaluated bound limit = { r with fresh := false } := by simp [evaluated, freshBeacon, stale, h]

theorem PeerRecord.evaluated_lost (bound limit : Nat) {r : PeerRecord} (stale : r.fresh = false) (h : r.state = .lost) :
    r.evaluated bound limit = { r with fresh := false, missed := min (r.missed + 1) 15 } := by
  simp [evaluated, freshBeacon, stale, h]

theorem PeerRecord.evaluated_stale (bound limit : Nat) {r : PeerRecord} (stale : r.fresh = false)
    (h : r.state = .heard ∨ r.state = .synced) : r.evaluated bound limit = { r with
      state := if limit ≤ r.missed + 1 then .lost else r.state, fresh := false, missed := min (r.missed + 1) 15 } := by
  rcases h with h | h <;> simp [evaluated, freshBeacon, stale, h]

/-- An evaluation makes no record the own one, and keeps the own one (R52). -/
theorem PeerRecord.evaluated_state_eq_self_iff (bound limit : Nat) (r : PeerRecord) :
    (r.evaluated bound limit).state = .self ↔ r.state = .self := by
  unfold evaluated
  split <;> simp_all <;> split <;> simp

/-- A test of every record of the table, by station number. -/
theorem all_toList_iff (peers : Vector PeerRecord 16) (p : PeerRecord → Bool) :
    peers.toList.all p = true ↔ ∀ i : Fin 16, p peers[i] = true := by
  rw [List.all_eq_true]
  constructor
  · intro h i
    exact h _ (Vector.mem_toList_iff.2 (Vector.getElem_mem i.isLt))
  · intro h x hx
    obtain ⟨i, hi, rfl⟩ := Vector.getElem_of_mem (Vector.mem_toList_iff.1 hx)
    exact h ⟨i, hi⟩

section

variable {s : State} {turn : LineTurn}

/-- A boundary that hands over no departure leaves the table and the alone flag of its evaluation (R59, R61). -/
theorem State.boundary_of_stays (stays : s.verdict = .none ∨ s.verdict = .join) :
    (s.boundary turn).sync.peers = s.evaluatedPeers
    ∧ (s.boundary turn).member.alone = s.evaluatedPeers.toList.all fun r => r.state ≠ .synced := by
  rw [boundary_eq, sync_lineErrors, member_lineErrors]
  rcases s.takeVerdict_evaluated_cases turn with ⟨_, e⟩ | ⟨_, _, e⟩ | ⟨_, which, _, _⟩
  · simp [e]
  · simp [e]
  · rcases stays with h | h <;> simp [h] at which

/-- The reports of the change of state of a boundary that hands over no departure. -/
theorem State.changeReports_of_stays (stays : s.verdict = .none ∨ s.verdict = .join) :
    s.changeReports s.verdict = if s.verdict = .join then [s.stamped (.state .joining .member .joined)] else [] := by
  rcases s.verdict_cases with h | ⟨h, at'⟩ | ⟨h, _⟩ | ⟨h, _⟩
  · simp [changeReports, h]
  · simp [changeReports, h, at']
  · simp [h] at stays
  · simp [h] at stays

end

/-- Settles O10: the peer records by the equations of R59, the reports by `State.reports_boundary`. -/
theorem peerTableUpdate : Obligations.PeerTableUpdate := by
  unfold Obligations.PeerTableUpdate
  intro s turn owed state stays
  obtain ⟨peers, alone⟩ := State.boundary_of_stays (turn := turn) stays
  have record (i : Fin 16) : (s.boundary turn).sync.peers[i]
      = (s.sync.peers[i]).evaluated s.config.outlierBound.toNat s.config.lostLimit := by
    rw [peers, s.getElem_evaluatedPeers i]
  refine ⟨_, (exec_roundBoundary_meets turn owed state).1, ?alone, fun i => ?record, ?reports⟩
  case alone =>
    rw [alone, peers, all_toList_iff]
    simp
  case record =>
    dsimp only
    rw [record i]
    generalize s.sync.peers[i] = r, s.config.outlierBound.toNat = bound, s.config.lostLimit = limit
    obtain ⟨beacon, fresh⟩ := r.evaluated_keeps bound limit
    refine ⟨fresh, beacon, fun own => ?_, fun other isFresh b hb => ?_, fun stale absent => ?_, fun stale known => ?_,
      fun stale lost => ?_⟩
    · simp [PeerRecord.evaluated_self bound limit own, own]
    · simp [PeerRecord.evaluated_fresh bound limit other isFresh hb]
    · simp [PeerRecord.evaluated_absent bound limit stale absent, absent]
    · simp [PeerRecord.evaluated_stale bound limit stale known]
    · simp [PeerRecord.evaluated_lost bound limit stale lost, lost]
  case reports => rw [s.reports_boundary turn, State.changeReports_of_stays stays, peers]

/-! ### The teardown of a boundary into LISTEN -/

/-- A purge takes every BEACON that is not in transmission, and so what a request has made (R21, R33). -/
theorem State.purged_requestBeacon (s : State) (body : BeaconBody) : (s.requestBeacon body).cont.purged = s.cont.purged := by
  have kept : (beaconQueue s.cont.queue body).filter (·.inTransmission) = s.cont.queue.filter (·.inTransmission) := by
    unfold beaconQueue
    dsimp only
    split
    · rfl
    · rename_i none
      split
      · have replaced : ∀ x ∈ s.cont.queue, x.kind = .beacon → x.inTransmission = false := by simpa using none
        rw [List.filter_map]
        generalize s.cont.queue = queue at replaced
        induction queue with
        | nil => rfl
        | cons x rest ih =>
          have ih := ih fun y hy => replaced y (List.mem_cons_of_mem x hy)
          have hx := replaced x List.mem_cons_self
          by_cases beacon : x.kind = .beacon
          · simpa [List.filter_cons, beacon, hx beacon, TxRecord.fresh] using ih
          · by_cases sent : x.inTransmission = true
            · simpa [List.filter_cons, beacon, sent] using ih
            · simpa [List.filter_cons, beacon, sent] using ih
      · split
        · simp [TxRecord.fresh]
        · rfl
  unfold requestBeacon
  split
  · simp [Contention.purged, kept]
  · rfl

theorem State.purged_evaluation (s : State) (turn : LineTurn) : (s.evaluation turn).cont.purged = s.cont.purged := by
  simp [evaluation, purged_requestBeacon]

/-- The record that a teardown leaves of an evaluated one (R59, R70). -/
theorem PeerRecord.tornDown_evaluated (bound limit : Nat) (r : PeerRecord) :
    (r.evaluated bound limit).tornDown = if r.state = .self then { r with fresh := false } else cleared := by
  by_cases own : r.state = .self
  · simp [tornDown, evaluated_self bound limit own, own]
  · simp [tornDown, evaluated_state_eq_self_iff, own]

/-- An output line after both stages of a teardown into LISTEN (R130). -/
theorem OutLine.resynced_eq (line : OutLine) (high' toDefault : Bool) : line.resynced high' toDefault =
    match line with
    | .released => .released
    | .driven high none => .driven (if toDefault then high' else high) none
    | .driven _ (some _) => .driven high' none := by
  cases toDefault <;> rcases line with _ | ⟨_, _ | _⟩ <;> rfl

/-- A boundary that leads into LISTEN is a teardown of the state that the evaluation has left. -/
theorem State.boundary_departs {s : State} {turn : LineTurn} (state : s.member.state = .joining ∨ s.member.state = .member)
    (left : (s.boundary turn).member.state = .listen) :
    let cause : Cause := if s.member.state = .member then .split else .joinFailed
    s.changeReports s.verdict = s.departureReports cause
    ∧ s.boundary turn = ((s.evaluated turn).teardownToListen cause).lineErrors .last turn (s.evaluation turn).line.errors
        (s.evaluation turn).now := by
  dsimp only
  rw [boundary_eq] at left ⊢
  rcases s.takeVerdict_evaluated_cases turn with ⟨_, e⟩ | ⟨_, _, e⟩ | ⟨cause, which, reports, e⟩
  · rcases state with h | h <;> simp [e, h] at left
  · simp [e] at left
  · rcases which with ⟨_, h, rfl⟩ | ⟨_, h, rfl⟩
    · simp [e, reports, h]
    · simp [e, reports, h]

/-- A port whose transaction, response, work and block are as they were differs in its reports and ATTN alone. -/
theorem ServicePort.eq_of_frame {p q : ServicePort} (transaction : p.transaction = q.transaction) (response : p.response = q.response)
    (work : p.work = q.work) (block : p.block = q.block) : p = { q with reports := p.reports, attn := p.attn } := by
  cases p
  cases q
  subst transaction response work block
  rfl

/-- Settles O12: the blocks by `State.teardownToListen_blocks` on the state that the evaluation has left. -/
theorem teardownIntoListen : Obligations.TeardownIntoListen := by
  unfold Obligations.TeardownIntoListen
  intro s t turn owed state took left
  obtain rfl : s.boundary turn = t := Host.Outcome.next.inj ((exec_roundBoundary_meets turn owed state).1.symm.trans took)
  obtain ⟨change, torn⟩ := State.boundary_departs state left
  have reports := s.reports_boundary turn
  rw [change] at reports
  dsimp only
  generalize (if s.member.state = .member then Cause.split else .joinFailed) = cause at change torn reports ⊢
  obtain ⟨member, clock, line, cont, sync, sched, out, cap, owes, _⟩ := (s.evaluated turn).teardownToListen_blocks cause
  refine ⟨?member, ?clock, ?line, ?cont, fun i => ?peer, ?_, ?_, ?_, ?sched, fun l => ?out, ?cap, ?owed, ?_, ?_, ?_, ?port, reports⟩
  case member => simp [torn, member]
  case clock => simp [torn, clock]
  case line => simp [torn, line]
  case cont =>
    rw [torn, State.cont_lineErrors, cont]
    exact s.purged_evaluation turn
  case peer =>
    have : ((s.boundary turn).sync.peers)[i] = ((s.evaluatedPeers)[i]).tornDown := by simp [torn, sync, SyncUnit.left]
    rw [this, s.getElem_evaluatedPeers i, PeerRecord.tornDown_evaluated]
  case sched => simp [torn, sched]
  case out =>
    have : ((s.boundary turn).out.lines)[l] = (s.out.lines[l]).resynced (s.defaultHigh l) (s.config.resync.getLsbD l) := by
      simp [torn, out, State.resyncLines, mapLines, State.defaultHigh, State.config]
    refine (this.trans (OutLine.resynced_eq _ _ _)).trans ?_
    rcases s.out.lines[l] with _ | ⟨_, _ | _⟩ <;> rfl
  case cap => simp [torn, cap, baseline]
  case owed => simp [torn, owes]
  case port => exact ServicePort.eq_of_frame (by simp [torn]) (by simp [torn]) (by simp [torn]) (by simp [torn])
  all_goals simp [torn, sync, SyncUnit.left]

end Sys2Proof.Machine
end

section
/-! PROOFS. Entry into STOPPED (R88–R91), by a STOP around the verdict of a boundary (R74) and by a duplicate number (R16); the sets of
an evaluation (R57) and the split round (R62). -/

namespace Sys2Proof.Machine

/-! ### Entry into STOPPED -/

/-- A station that enters STOPPED has no receive error counted, whether or not a frame is in SEND (R17). -/
@[simp] theorem LineUnit.errors_stopped (l : LineUnit) : l.stopped.errors = 0 := by unfold stopped; split <;> rfl

section

variable (s : State) (cause : Cause)

/-- What STOP or a duplicate number taken in LISTEN leaves of each block (R88, R89). -/
theorem State.stopListening_blocks :
    (s.stopListening cause).member = { s.member with state := .stopped, cause := some cause }
    ∧ (s.stopListening cause).clock = { s.clock with listen := none }
    ∧ (s.stopListening cause).line = s.line.stopped
    ∧ (s.stopListening cause).cont = s.cont.silent
    ∧ (s.stopListening cause).sync = s.sync
    ∧ (s.stopListening cause).sched = s.sched
    ∧ (s.stopListening cause).out = s.defaultLines.out
    ∧ (s.stopListening cause).cap = { s.cap with filters := none }
    ∧ (s.stopListening cause).owed = { s.owed with boundary := false, fireFrom := none }
    ∧ (s.stopListening cause).port.reports = arrive s.port.reports (s.stamped (.state s.member.state .stopped cause)) :=
  ⟨rfl, rfl, rfl, rfl, rfl, rfl, rfl, rfl, rfl, rfl⟩

theorem State.enterStopped_of_listen {s : State} (h : s.member.state = .listen) : s.enterStopped cause = s.stopListening cause := by
  simp [enterStopped, h]

theorem State.enterStopped_of_timed {s : State} (h : s.member.state = .joining ∨ s.member.state = .member) :
    s.enterStopped cause = s.teardownToStopped cause := by
  rcases h with h | h <;> simp [enterStopped, h]

theorem State.putOffErrors_eq : s.putOffErrors = if (s.owed.verdict.any fun h => h.turn = .last) = true ∧ 0 < s.line.errors then
    [{ detail := .lineErrors s.line.errors, stamp := s.now, unsynced := false }] else [] := by
  unfold putOffErrors
  rcases s.owed.verdict with _ | ⟨v, turn⟩
  · rfl
  · cases turn <;> simp

/-- The reports of a departure into STOPPED from JOINING or MEMBER (R91, R116). -/
theorem State.stoppedReports_of_timed {s : State} (h : s.member.state = .joining ∨ s.member.state = .member) :
    s.stoppedReports cause = s.putOffErrors ++ s.waitingReports
      ++ [{ detail := .state s.member.state .stopped cause, stamp := s.clock.ticks, unsynced := true }]
      ++ if s.sched.queue = [] then [] else
        [{ detail := .flushed s.sched.queue.length cause, stamp := s.clock.ticks, unsynced := true }] := by
  have : s.member.state ≠ .listen := by rcases h with h | h <;> simp [h]
  rw [putOffErrors_eq]
  simp only [stoppedReports, if_neg this]
  rfl

/-- The two ways into STOPPED of a station that uses the line (R88–R90). -/
theorem State.active_cases {s : State} (active : s.active = true) :
    s.member.state = .listen ∨ (s.member.state ≠ .listen ∧ (s.member.state = .joining ∨ s.member.state = .member)) := by
  unfold State.active at active
  cases h : s.member.state <;> simp_all

/-- The reports of an entry into STOPPED (R75, R88–R91, R116). -/
theorem State.reports_enterStopped {s : State} (active : s.active = true)
    (untimed : s.member.state = .listen → s.clock.cluster = none) :
    (s.enterStopped cause).port.reports = (s.stoppedReports cause).foldl arrive s.port.reports := by
  rcases active_cases active with h | ⟨_, h⟩
  · rw [enterStopped_of_listen cause h]
    obtain ⟨_, _, _, _, _, _, _, _, _, reports⟩ := s.stopListening_blocks cause
    simp [reports, stoppedReports, h, stamped, stampTime, unsynced, valid, untimed h]
  · rw [enterStopped_of_timed cause h, stoppedReports_of_timed cause h]
    obtain ⟨_, _, _, _, _, _, _, _, _, reports⟩ := s.teardownToStopped_blocks cause
    rw [reports]
    split <;> simp_all

/-- What an entry into STOPPED leaves of the blocks, from whichever state (R17, R43, R72, R131, R149). -/
theorem State.enterStopped_stops {s : State} (active : s.active = true) :
    (s.enterStopped cause).member = { s.member with
      state := .stopped, cause := some cause, alone := if s.member.state = .listen then s.member.alone else true }
    ∧ (s.enterStopped cause).line = s.line.stopped
    ∧ (s.enterStopped cause).out = s.defaultLines.out ∧ (s.enterStopped cause).cap = { s.cap with filters := none }
    ∧ (s.enterStopped cause).clock.listen = none ∧ (s.enterStopped cause).clock.ticks = s.clock.ticks
    ∧ (s.enterStopped cause).cont = (if s.member.state = .listen then s.cont else s.cont.purged).silent
    ∧ (s.enterStopped cause).owed = { s.owed with
        boundary := false, fireFrom := none
        insertions := if s.member.state = .listen then s.owed.insertions else
          s.owed.insertions.map fun h => { h with behind := [] } } := by
  rcases active_cases active with h | ⟨other, h⟩
  · rw [enterStopped_of_listen cause h, if_pos h, if_pos h, if_pos h]
    exact ⟨rfl, rfl, rfl, rfl, rfl, rfl, rfl, rfl⟩
  · rw [enterStopped_of_timed cause h, if_neg other, if_neg other, if_neg other]
    obtain ⟨member, clock, line, cont, _, _, out, cap, owed, _⟩ := s.teardownToStopped_blocks cause
    exact ⟨member, line, out, cap, by rw [clock], by rw [clock], cont, owed⟩

end

/-- The STATE report of an entry into STOPPED is one (R75). -/
theorem State.stateDetails_stoppedReports (s : State) (cause : Cause) :
    stateDetails (s.stoppedReports cause) = [.state s.member.state .stopped cause] := by
  have told : stateDetails [{ detail := .state s.member.state .stopped cause, stamp := s.clock.ticks, unsynced := true }]
    = [.state s.member.state .stopped cause] := rfl
  have waiting := s.stateDetails_waitingReports
  unfold stoppedReports
  dsimp only
  change stateDetails (if _ then _ else _ ++ s.waitingReports ++ _ ++ _) = _
  split
  · exact told
  · simp only [stateDetails_append, waiting, told]
    repeat' split
    all_goals rfl

/-- An output line that goes to its default level (R131). -/
theorem OutLine.defaulted_eq (line : OutLine) (high : Bool) : line.defaulted high =
    match line with
    | .released => .released
    | .driven _ _ => .driven high none := rfl

theorem SyncUnit.getElem_left (y : SyncUnit) (i : Fin 16) : y.left.peers[i] = (y.peers[i]).tornDown := by simp [left]

/-- Of the line unit only the count shows in the reports of an entry into STOPPED. -/
theorem State.stoppedReports_withLine {s : State} (cause : Cause) {l : LineUnit} (errors : l.errors = s.line.errors) :
    (s.withLine l).stoppedReports cause = s.stoppedReports cause := by
  unfold stoppedReports
  rw [line_withLine, errors]
  rfl

/-! ### A duplicate number -/

/-- A frame of the own number, once valid, stops the station from WAIT (R16, R88). -/
theorem State.receive_own {s : State} {f : PartialFrame} {samples : List Bool} {payload : Payload} (atOnce : Bool)
    (valid : takeSamples f samples = .valid { sender := s.number, payload := payload }) :
    ∃ run, s.receive atOnce f samples = (s.withLine { s.line with
      receiver := .wait, sof := none, frame := none, dominantRun := run, recessiveRun := 0 }).enterStopped .duplicate := by
  refine ⟨runAfter s.line.dominantRun samples, ?_⟩
  unfold receive
  rw [valid]
  exact if_pos rfl

/-- A receiver that is not in SEND is OFF in STOPPED (R17). -/
theorem LineUnit.stopped_of_not_send {l : LineUnit} (h : l.receiver ≠ .send) : l.stopped.receiver = .off ∧ l.stopped.muted = false := by
  simp [stopped, h]

/-- Settles O28: the frame is valid in WAIT, and the entry into STOPPED by `State.enterStopped_stops` and the blocks of each way in. -/
theorem duplicateStops : Obligations.DuplicateStops := by
  unfold Obligations.DuplicateStops
  intro s f event samples payload of receives frame valid phase active
  obtain ⟨atOnce, took⟩ := exec_frameCompletion_receive of receives frame
  obtain ⟨run, stopped⟩ := State.receive_own (s := s) atOnce valid
  rw [stopped] at took
  refine ⟨_, took, ?_⟩
  obtain ⟨timed, _⟩ := phase
  have untimed : s.member.state = .listen → s.clock.cluster = none := fun h => by simpa [h] using timed
  generalize hl : ({ s.line with receiver := .wait, sof := none, frame := none, dominantRun := run, recessiveRun := 0 } : LineUnit) = l
  have errors : l.errors = s.line.errors := by rw [← hl]
  obtain ⟨receiver, muted⟩ := LineUnit.stopped_of_not_send (l := l) (by simp [← hl])
  have reports := State.reports_enterStopped .duplicate (s := s.withLine l) active untimed
  obtain ⟨member, line, out, cap, listen, ticks, cont, owed⟩ := State.enterStopped_stops .duplicate (s := s.withLine l) active
  have lines (l' : Fin 8) : ((s.withLine l).enterStopped .duplicate).out.lines[l'] = (s.out.lines[l']).defaulted (s.defaultHigh l') := by
    simp [out, State.defaultLines, mapLines, State.defaultHigh]
  refine ⟨by simp [member], by simp [member], by simp [member], by simp [line, receiver], by simp [line, muted], by simp [line], listen,
    fun other => ?timed, fun h => ?listening, ?_, ?_, ?_, cap, fun l' => ?line, ticks, by simp, by simp, by simp, ?port, ?reports, owed⟩
  case timed =>
    have h := ((State.active_cases active).resolve_left other).2
    rw [State.enterStopped_of_timed .duplicate (s := s.withLine l) h]
    obtain ⟨member, clock, _, cont, sync, sched, _⟩ := (s.withLine l).teardownToStopped_blocks .duplicate
    refine ⟨by simp [clock], by simp [clock], by simp [sched], by simp [member], by rw [cont]; rfl, fun i => ?_⟩
    rw [sync, SyncUnit.getElem_left]
    rfl
  case listening =>
    rw [State.enterStopped_of_listen .duplicate (s := s.withLine l) h]
    exact ⟨rfl, rfl, rfl⟩
  case line => exact (lines l').trans (OutLine.defaulted_eq _ _)
  case port => exact ServicePort.eq_of_frame (by simp) (by simp) (by simp) (by simp)
  case reports =>
    rw [reports, State.stoppedReports_withLine .duplicate errors]
    rfl
  all_goals simp [cont, Contention.silent]

end Sys2Proof.Machine
end

section
/-! PROOFS. The sets of an evaluation (R57), the split round and its count (R62, R86), and a STOP before or after the verdict of a
boundary (R74). -/

namespace Sys2Proof.Machine

/-! ### The sets of an evaluation -/

/-- The offset of a record that an evaluation sorts: fresh, of a MEMBER sender, not the own one (R57). -/
def PeerRecord.memberOffset (r : PeerRecord) : Option Int :=
  if r.fresh = true ∧ r.state ≠ .self ∧ r.beacon.any (·.body.member) = true then r.beacon.map (·.offset.toInt) else none

/-- The sorted records are those whose beacon is fresh and of a MEMBER sender. -/
theorem PeerRecord.memberOffset_eq (r : PeerRecord) :
    r.memberOffset = r.freshBeacon.bind fun b => if b.body.member then some b.offset.toInt else none := by
  rcases r with ⟨state, fresh, missed, beacon⟩
  by_cases sorted : fresh = true ∧ state ≠ .self
  · obtain ⟨rfl, other⟩ := sorted
    cases beacon with
    | none => simp [memberOffset, freshBeacon]
    | some b => cases member : b.body.member <;> simp [memberOffset, freshBeacon, other, member]
  · have unsorted : freshBeacon ⟨state, fresh, missed, beacon⟩ = none := by
      have : ¬ (fresh && decide (state ≠ .self)) = true := by simpa using sorted
      exact if_neg this
    rw [unsorted]
    exact if_neg fun h => sorted ⟨h.1, h.2.1⟩

theorem PeerRecord.inBound_eq (bound : Nat) (r : PeerRecord) :
    r.inBound bound = r.memberOffset.any fun x => decide (x.natAbs ≤ bound) := by
  rw [memberOffset_eq, inBound]
  cases r.freshBeacon with
  | none => rfl
  | some b =>
    cases member : b.body.member with
    | false => simp [member]
    | true =>
      simp only [Option.bind_some, member, if_true, Bool.true_and, Option.any_some]
      rfl

theorem PeerRecord.outOfBound_eq (bound : Nat) (r : PeerRecord) :
    r.outOfBound bound = r.memberOffset.any fun x => decide (bound < x.natAbs) := by
  rw [memberOffset_eq, outOfBound]
  cases r.freshBeacon with
  | none => rfl
  | some b =>
    cases member : b.body.member with
    | false => simp [member]
    | true =>
      simp only [Option.bind_some, member, if_true, Bool.true_and, Option.any_some]
      rfl

theorem PeerRecord.offset_of_memberOffset {r : PeerRecord} {x : Int} (h : r.memberOffset = some x) :
    (r.beacon.map (·.offset.toInt)).getD 0 = x := by
  rw [(Option.ite_none_right_eq_some.1 h).2, Option.getD_some]

/-- The in-bound offsets, by station number (R58). -/
theorem inBoundOffsets_eq (bound : Nat) (peers : Vector PeerRecord 16) : inBoundOffsets bound peers =
    ((List.finRange 16).filterMap fun i => (peers[i]).memberOffset).filter fun x => decide (x.natAbs ≤ bound) := by
  unfold inBoundOffsets stationsWhere
  induction List.finRange 16 with
  | nil => rfl
  | cons i rest ih =>
    cases h : (peers[i]).memberOffset with
    | none =>
      have out : (peers[i]).inBound bound = false := by rw [PeerRecord.inBound_eq, h, Option.any_none]
      simpa only [List.filter_cons, out, Bool.false_eq_true, if_false, List.filterMap_cons, h] using ih
    | some x =>
      have test : (peers[i]).inBound bound = decide (x.natAbs ≤ bound) := by rw [PeerRecord.inBound_eq, h, Option.any_some]
      have offset := PeerRecord.offset_of_memberOffset h
      by_cases near : x.natAbs ≤ bound
      · simpa only [List.filter_cons, test, near, decide_true, if_true, List.map_cons, offset, List.filterMap_cons, h,
          List.cons.injEq, true_and] using ih
      · simpa only [List.filter_cons, test, near, decide_false, Bool.false_eq_true, if_false, List.filterMap_cons, h] using ih

theorem sortsByBound : SortsByBound := fun bound peers =>
  ⟨List.filter_congr fun i _ => (peers[i]).inBound_eq bound, List.filter_congr fun i _ => (peers[i]).outOfBound_eq bound,
    inBoundOffsets_eq bound peers⟩

/-! ### The split round -/

/-! A least number, by what lies below it and what it lies above. -/

theorem foldl_min_lt_iff {α : Type} (f : α → Nat) (l : List α) (a n : Nat) :
    l.foldl (fun m x => min m (f x)) a < n ↔ a < n ∨ ∃ x ∈ l, f x < n := by
  induction l generalizing a with
  | nil => simp
  | cons x rest ih => simp [ih, or_assoc]

theorem lt_foldl_min_iff {α : Type} (f : α → Nat) (l : List α) (a n : Nat) :
    n < l.foldl (fun m x => min m (f x)) a ↔ n < a ∧ ∀ x ∈ l, n < f x := by
  induction l generalizing a with
  | nil => simp
  | cons x rest ih => simp [ih, and_assoc]

/-- A split round: more stations out of bound than on this station's side, or as many and among them the lowest number (R62). -/
theorem splitRound_iff (number : Station) (inside outside : List Station) : splitRound number inside outside = true ↔
    inside.length + 1 < outside.length
    ∨ (outside.length = inside.length + 1 ∧ ∃ m ∈ outside, ∀ j ∈ number :: inside, m < j) := by
  have lowest : outside.foldl (fun m i => min m i.val) 16 < (number :: inside).foldl (fun m i => min m i.val) 16 ↔
      ∃ m ∈ outside, ∀ j ∈ number :: inside, m < j := by
    rw [foldl_min_lt_iff (fun i : Station => i.val)]
    constructor
    · rintro (h | ⟨m, hm, h⟩)
      · exact absurd ((lt_foldl_min_iff (fun i : Station => i.val) _ _ _).1 h).1 (lt_irrefl 16)
      · exact ⟨m, hm, ((lt_foldl_min_iff (fun i : Station => i.val) _ _ _).1 h).2⟩
    · rintro ⟨m, hm, h⟩
      exact .inr ⟨m, hm, (lt_foldl_min_iff (fun i : Station => i.val) _ _ _).2 ⟨m.isLt, h⟩⟩
  unfold splitRound
  dsimp only
  rw [Bool.or_eq_true, Bool.and_eq_true, decide_eq_true_eq, decide_eq_true_eq, decide_eq_true_eq, lowest]

section

variable {s : State} {turn : LineTurn}

/-- The verdict in MEMBER is a split at the split limit (R62). -/
theorem State.verdict_of_member (h : s.member.state = .member) : s.verdict =
    if s.config.splitLimit ≤ (if s.splitTest then s.sync.splitCount + 1 else 0) then .split else .none := by
  simp [verdict, evaluatedCounts, h]

/-- A boundary with no verdict leaves the station state, and the counts of its evaluation. -/
theorem State.boundary_of_none (h : s.verdict = .none) : (s.boundary turn).member.state = s.member.state
    ∧ (s.boundary turn).member.cause = s.member.cause ∧ (s.boundary turn).sync.splitCount = s.evaluatedCounts.1 := by
  rw [boundary_eq, h, takeVerdict_void (.inl rfl)]
  simp

/-- The change of state that each verdict makes in the state that it suits (R83, R84, R86). -/
def Verdict.makes (v : Verdict) (new : StationState) (cause : Cause) : Prop :=
  (v = .split ∧ new = .listen ∧ cause = .split) ∨ (v = .join ∧ new = .member ∧ cause = .joined)
    ∨ (v = .joinFailure ∧ new = .listen ∧ cause = .joinFailed)

/-- A boundary with a verdict changes the station state, with one STATE report; into LISTEN with no cluster time. -/
theorem State.boundary_of_verdict {new : StationState} {cause : Cause} (h : s.verdict.makes new cause) :
    (s.boundary turn).member.state = new ∧ (s.boundary turn).member.cause = some cause
    ∧ ((s.boundary turn).member.state = .listen → (s.boundary turn).clock.cluster = none)
    ∧ stateDetails (s.changeReports s.verdict) = [.state s.member.state new cause] := by
  rcases s.takeVerdict_evaluated_cases turn with ⟨v, _⟩ | ⟨v, at', joins⟩ | ⟨c, which, reports, torn⟩
  · simp [Verdict.makes, v] at h
  · obtain ⟨rfl, rfl⟩ : new = .member ∧ cause = .joined := by simpa [Verdict.makes, v] using h
    rw [boundary_eq, joins, v, changeReports_join at', at']
    simp [stamped, stateDetails, ReportDetail.isState]
  · obtain ⟨rfl, rfl⟩ : new = .listen ∧ cause = c := by
      rcases which with ⟨v, _, rfl⟩ | ⟨v, _, rfl⟩ <;> simpa [Verdict.makes, v] using h
    obtain ⟨member, clock, _⟩ := (s.evaluated turn).teardownToListen_blocks cause
    rw [boundary_eq, torn, reports]
    simp [member, clock]

/-- A handed verdict to which the station state gives no effect changes nothing, once no LINE_ERRORS report is put off (R73, R74). -/
theorem State.takeHandedVerdict_of_void {h : HandedVerdict} (handed : s.owed.verdict = some h)
    (reported : h.turn ≠ .last ∨ s.line.errors = 0)
    (void : h.verdict = .none ∨ (h.verdict = .split ∧ s.member.state ≠ .member)
      ∨ ((h.verdict = .join ∨ h.verdict = .joinFailure) ∧ s.member.state ≠ .joining)) :
    s.takeHandedVerdict = s.withOwed { s.owed with verdict := none } := by
  rw [takeHandedVerdict_void handed (takeVerdict_void void)]
  have unreported : ¬ (decide (LineTurn.last = h.turn) && decide (0 < s.line.errors)) = true := by
    rcases reported with other | zero
    · simp [Ne.symm other]
    · simp [zero]
  have line : ({ s.line with errors := if h.turn = .last then 0 else s.line.errors } : LineUnit) = s.line := by
    rcases reported with other | zero
    · rw [if_neg other]
    · rw [zero, ite_self, ← zero]
  rw [lineErrors, if_neg unreported, dropVerdict, line]
  rfl

/-! The response of a command leaves every block but the port, and the reports. -/

@[simp] theorem State.member_answer (s : State) (c : Command) (code : RespCode) (data : List Byte) :
    (s.answer c code data).member = s.member := rfl
@[simp] theorem State.line_answer (s : State) (c : Command) (code : RespCode) (data : List Byte) :
    (s.answer c code data).line = s.line := rfl
@[simp] theorem State.owed_answer (s : State) (c : Command) (code : RespCode) (data : List Byte) :
    (s.answer c code data).owed = s.owed := rfl
@[simp] theorem State.reports_answer (s : State) (c : Command) (code : RespCode) (data : List Byte) :
    (s.answer c code data).port.reports = s.port.reports := rfl

/-- The row STOP in a station that uses the line, in its time (R89, R90, R172). -/
theorem exec_stop {n : Nat} (work : s.port.work = .current .stop n) (least : 1 ≤ n) (most : n ≤ 16) (active : s.active = true) :
    exec .stop s = .next ((s.enterStopped .stop).answer .stop .ok []) := by
  have allowed : Command.allowedIn .stop s.member.state = true := by
    rcases State.active_cases active with h | ⟨_, h | h⟩ <;> simp [Command.allowedIn, h]
  rw [show Instr.stop = Command.row .stop from rfl, s.exec_row .stop n work least most]
  exact congrArg _ (if_pos allowed)

/-- The reports of an evaluation whose verdict is left, and those of a STOP that comes next: what a boundary with no change of state
reports, and then what the STOP would report alone (R43, R74). -/
theorem State.stoppedReports_evaluation (state : s.member.state = .joining ∨ s.member.state = .member) (cause : Cause) :
    ((s.evaluation turn).stoppedReports cause).foldl arrive (s.evaluation turn).port.reports =
      (s.boundaryReports turn s.evaluatedPeers [] ++ (s.withOwed { s.owed with verdict := none }).stoppedReports cause).foldl arrive
        s.port.reports := by
  have put : (s.evaluation turn).putOffErrors = s.errorReports .last turn := by
    have now : (s.evaluation turn).now = s.now := by simp [State.now]
    rw [putOffErrors_eq, errorReports, now]
    cases turn <;> simp
  have waiting : (s.evaluation turn).waitingReports = s.waitingReports := by simp [waitingReports]
  have told : (s.withOwed { s.owed with verdict := none }).putOffErrors = [] := by simp
  rw [stoppedReports_of_timed cause (by simpa using state), stoppedReports_of_timed cause (by simpa using state), put, waiting, told,
    reports_evaluation, boundaryReports_eq]
  simp only [List.foldl_append, member_evaluation, ticks_evaluation, sched_evaluation, List.append_nil, List.nil_append,
    member_withOwed, clock_withOwed, sched_withOwed]
  rfl

/-- A STOP between an evaluation and its verdict stops the station, and makes the verdict void (R43, R73, R74). -/
theorem exec_stop_evaluation {n : Nat} (state : s.member.state = .joining ∨ s.member.state = .member)
    (work : s.port.work = .current .stop n) (least : 1 ≤ n) (most : n ≤ 16) :
    ∃ v, exec .stop (s.evaluation turn) = .next v ∧ v.member.state = .stopped ∧ v.member.cause = some .stop
      ∧ v.takeHandedVerdict = v.withOwed { v.owed with verdict := none }
      ∧ v.port.reports = (s.boundaryReports turn s.evaluatedPeers []
          ++ (s.withOwed { s.owed with verdict := none }).stoppedReports .stop).foldl arrive s.port.reports := by
  have active : (s.evaluation turn).active = true := by rcases state with h | h <;> simp [State.active, h]
  have timed : (s.evaluation turn).member.state ≠ .listen := by rcases state with h | h <;> simp [h]
  have reports := State.reports_enterStopped .stop active fun h => absurd h timed
  rw [State.stoppedReports_evaluation state] at reports
  obtain ⟨member, line, _, _, _, _, _, owes⟩ := State.enterStopped_stops .stop active
  have handed : ((s.evaluation turn).enterStopped .stop).owed.verdict = some { verdict := s.verdict, turn := turn } := by
    rw [owes, State.owed_evaluation]
  have void := s.verdict.effect_cases .stopped
  refine ⟨_, exec_stop (by simpa using work) least most active, by simp [member], by simp [member],
    State.takeHandedVerdict_of_void (h := { verdict := s.verdict, turn := turn }) (by simpa using handed) (.inr (by simp [line])) ?_,
    by simpa using reports⟩
  simpa [member] using void

/-- A STOP after a boundary that has changed the station state stops the station from the state that the change has left. -/
theorem exec_stop_boundary {n : Nat} {new : StationState} {cause : Cause} (makes : s.verdict.makes new cause)
    (work : s.port.work = .current .stop n) (least : 1 ≤ n) (most : n ≤ 16) :
    ∃ v, exec .stop (s.boundary turn) = .next v ∧ v.member.state = .stopped ∧ v.member.cause = some .stop
      ∧ v.port.reports = (s.boundaryReports turn s.evaluatedPeers (s.changeReports s.verdict)
          ++ (s.boundary turn).stoppedReports .stop).foldl arrive s.port.reports := by
  obtain ⟨state, _, untimed, _⟩ := State.boundary_of_verdict (turn := turn) makes
  have active : (s.boundary turn).active = true := by
    rcases makes with ⟨_, rfl, _⟩ | ⟨_, rfl, _⟩ | ⟨_, rfl, _⟩ <;> simp [State.active, state]
  obtain ⟨member, _⟩ := State.enterStopped_stops .stop active
  have reports := State.reports_enterStopped .stop active untimed
  rw [s.reports_boundary turn, ← List.foldl_append] at reports
  exact ⟨_, exec_stop (by simpa [State.boundary] using work) least most active, by simp [member], by simp [member], reports⟩

end

/-- Settles O11: the two rows are the boundary by its definition; a STOP between them leaves a state to which no verdict has an effect,
and a STOP after them the state that `State.boundary_of_verdict` describes. -/
theorem Proofs.splitRound : Obligations.SplitRound := by
  unfold Obligations.SplitRound
  refine ⟨sortsByBound, splitRound_iff, fun s turn owed state => ?count, fun s turn owed state => ?rows,
    fun s h handed reported void => ?void, fun s turn n owed state least most work => ⟨?between, fun new cause makes => ?after⟩⟩
  case count =>
    dsimp only
    refine ⟨_, (exec_roundBoundary_meets turn owed (.inr state)).1, fun stays limit => ?_, fun splits below => ?_, fun splits reached => ?_⟩
    · have test : s.splitTest = false := stays
      obtain ⟨same, cause, count⟩ := State.boundary_of_none (turn := turn)
        (show s.verdict = .none by rw [State.verdict_of_member state, test, if_neg (by simpa using Nat.pos_iff_ne_zero.1 limit)])
      exact ⟨same.trans state, cause, by rw [count]; simp [State.evaluatedCounts, state, test]⟩
    · have test : s.splitTest = true := splits
      obtain ⟨same, cause, count⟩ := State.boundary_of_none (turn := turn)
        (show s.verdict = .none by rw [State.verdict_of_member state, test, if_neg (by simpa using below)])
      exact ⟨same.trans state, cause, by rw [count]; simp [State.evaluatedCounts, state, test]⟩
    · have test : s.splitTest = true := splits
      have verdict : s.verdict = .split := by rw [State.verdict_of_member state, test, if_pos (by simpa using reached)]
      obtain ⟨new, cause, _⟩ := State.boundary_of_verdict (turn := turn) (s := s) (.inl ⟨verdict, rfl, rfl⟩)
      exact ⟨new, cause⟩
  case rows =>
    obtain ⟨whole, evaluation⟩ := exec_roundBoundary_meets turn owed state
    exact ⟨_, _, evaluation, exec_roundBoundary_verdict _, whole, s.owed_evaluation turn, by simp, by simp, by simp⟩
  case void => rw [exec_roundBoundary_verdict, State.takeHandedVerdict_of_void handed reported void]
  case between =>
    obtain ⟨v, stops, stopped, cause, void, reports⟩ := exec_stop_evaluation (turn := turn) state work least most
    refine ⟨_, v, _, (exec_roundBoundary_meets turn owed state).2, stops, exec_roundBoundary_verdict v, void, ?_⟩
    rw [void]
    refine ⟨stopped, cause, reports, ?_⟩
    change stateDetails _ = _
    rw [stateDetails_append, State.stateDetails_boundaryReports, State.stateDetails_stoppedReports]
    rfl
  case after =>
    obtain ⟨v, stops, stopped, cause', reports⟩ := exec_stop_boundary (turn := turn) makes work least most
    obtain ⟨state', changed, _, details⟩ := State.boundary_of_verdict (turn := turn) makes
    refine ⟨_, v, _, (exec_roundBoundary_meets turn owed state).1, state', changed, stops, stopped, cause', reports, ?_⟩
    change stateDetails _ = _
    rw [stateDetails_append, State.stateDetails_boundaryReports, details, State.stateDetails_stoppedReports, state']
    rfl

end Sys2Proof.Machine
end

section
/-! PROOFS. The receiver's assembly of characters (R1, R6, R7): samples one after another, a character bit by bit, the gap between two
characters, and the checks on the characters. -/

namespace Sys2Proof.Machine

/-! ### Samples one after another -/

/-- What further samples make of a reception: a frame in assembly takes them, one that has ended does not (R7). -/
def Received.goOn (r : Received) (samples : List Bool) : Received :=
  match r with
  | .more f => takeSamples f samples
  | .truncated => .truncated
  | .error => .error
  | .valid frame => .valid frame

@[simp] theorem Received.goOn_more (f : PartialFrame) (samples : List Bool) : (more f).goOn samples = takeSamples f samples := rfl
@[simp] theorem Received.goOn_truncated (samples : List Bool) : truncated.goOn samples = .truncated := rfl
@[simp] theorem Received.goOn_error (samples : List Bool) : error.goOn samples = .error := rfl
@[simp] theorem Received.goOn_valid (frame : Frame) (samples : List Bool) : (valid frame).goOn samples = .valid frame := rfl

theorem takeSamples_nil (f : PartialFrame) : takeSamples f [] = .more f := rfl

theorem takeSamples_cons (f : PartialFrame) (sample : Bool) (rest : List Bool) :
    takeSamples f (sample :: rest) = (takeSample f sample).goOn rest := by
  rw [takeSamples]
  cases takeSample f sample <;> rfl

theorem takeSamples_append (f : PartialFrame) (first rest : List Bool) :
    takeSamples f (first ++ rest) = (takeSamples f first).goOn rest := by
  induction first generalizing f with
  | nil => rfl
  | cons sample more ih =>
    rw [List.cons_append, takeSamples_cons, takeSamples_cons]
    cases takeSample f sample with
    | more f' => exact ih f'
    | truncated | error | valid frame => rfl

/-! ### A character bit by bit -/

/-- Within a character a sample is a further bit of it, up to the ninth (R1). -/
theorem takeSample_bit {f : PartialFrame} (sample : Bool) (within : f.bits ≠ []) (room : f.bits.length < 9) :
    takeSample f sample = .more { f with bits := f.bits ++ [sample] } := by
  simp [takeSample, within, room]

/-- A dominant stop bit is a framing error (R1). -/
theorem takeSample_dominant_stop {f : PartialFrame} (full : f.bits.length = 9) : takeSample f false = .error := by
  have within : f.bits ≠ [] := fun h => by simp [h] at full
  simp [takeSample, within, full]

/-- At a recessive stop bit the character is judged with those before it (R7). -/
theorem takeSample_stop {f : PartialFrame} (full : f.bits.length = 9) :
    takeSample f true = judgeCharacters (f.chars ++ [byteOfBits (f.bits.drop 1)]) := by
  have within : f.bits ≠ [] := fun h => by simp [h] at full
  simp [takeSample, within, full]

/-- A dominant sample between two characters is a start bit (R1). -/
theorem takeSample_start {f : PartialFrame} (between : f.bits = []) : takeSample f false = .more { f with bits := [false], gap := 0 } := by
  simp [takeSample, between]

/-- The bits of a character in progress, up to the ninth. -/
theorem takeSamples_bits {f : PartialFrame} (l : List Bool) (within : f.bits ≠ []) (room : f.bits.length + l.length ≤ 9) :
    takeSamples f l = .more { f with bits := f.bits ++ l } := by
  induction l generalizing f with
  | nil => simp [takeSamples_nil]
  | cons sample rest ih =>
    simp only [List.length_cons] at room
    rw [takeSamples_cons, takeSample_bit sample within (by omega), Received.goOn_more, ih (by simp) (by simp; omega)]
    simp

/-- The first `n` bits of a character, from one to nine, are held. -/
theorem takeSamples_started (chars : List Byte) (gap : Nat) (l : List Bool) (most : l.length ≤ 8) :
    takeSamples { chars := chars, bits := [], gap := gap } (false :: l) = .more { chars := chars, bits := false :: l, gap := 0 } := by
  rw [takeSamples_cons, takeSample_start rfl, Received.goOn_more, takeSamples_bits l (by simp) (by simp; omega)]
  rfl

/-- The bits of a character: start bit, eight data bits, stop bit (R1). -/
theorem characterBits_eq (b : Byte) : characterBits b = false :: (List.ofFn fun i : Fin 8 => b.getLsbD i) ++ [true] := rfl

@[simp] theorem length_characterBits (b : Byte) : (characterBits b).length = 10 := rfl

theorem getLsbD_flagBit (n j : Fin 8) (flag : Bool) : (flagBit n flag).getLsbD j = (flag && decide (j = n)) := by
  revert n j flag
  decide

/-- The data bits of a character make its byte. -/
theorem byteOfBits_dataBits (b : Byte) : byteOfBits (List.ofFn fun i : Fin 8 => b.getLsbD i) = b := by
  have bits : byteOfBits (List.ofFn fun i : Fin 8 => b.getLsbD i)
      = (List.finRange 8).foldl (fun (acc : Byte) (i : Fin 8) => acc ||| flagBit i (b.getLsbD i)) 0 := rfl
  have gathered : ∀ (l : List (Fin 8)) (acc : Byte) (j : Fin 8),
      (l.foldl (fun (acc : Byte) (i : Fin 8) => acc ||| flagBit i (b.getLsbD i)) acc).getLsbD j = (acc.getLsbD j || (b.getLsbD j && decide (j ∈ l))) := by
    intro l
    induction l with
    | nil => simp
    | cons i rest ih =>
      intro acc j
      rw [List.foldl_cons, ih, BitVec.getLsbD_or, getLsbD_flagBit]
      by_cases same : j = i
      · subst same
        cases b.getLsbD j <;> simp
      · simp [same]
  rw [bits]
  refine BitVec.eq_of_getLsbD_eq fun j hj => ?_
  simpa using gathered (List.finRange 8) 0 ⟨j, hj⟩

/-- A whole character after any gap that a receiver has waited (R1, R7). -/
theorem takeSamples_character (chars : List Byte) (gap : Nat) (b : Byte) :
    takeSamples { chars := chars, bits := [], gap := gap } (characterBits b) = judgeCharacters (chars ++ [b]) := by
  rw [characterBits_eq, takeSamples_append, takeSamples_started chars gap _ (by simp), Received.goOn_more, takeSamples_cons,
    takeSample_stop (by simp)]
  have byte := byteOfBits_dataBits b
  simp only [List.drop_succ_cons, List.drop_zero, byte]
  cases judgeCharacters (chars ++ [b]) <;> rfl

/-! ### The gap between two characters -/

/-- Bit times of recessive between two characters: the receiver waits while the gap is shorter than 11 (R2, R6). -/
theorem takeSamples_gap (chars : List Byte) (gap n : Nat) (short : gap + n < 11) :
    takeSamples { chars := chars, bits := [], gap := gap } (List.replicate n true) = .more { chars := chars, bits := [], gap := gap + n } := by
  induction n generalizing gap with
  | zero => rfl
  | succ n ih =>
    have waits : takeSample { chars := chars, bits := [], gap := gap } true = .more { chars := chars, bits := [], gap := gap + 1 } := by
      have : gap + 1 < 11 := by omega
      simp [takeSample, PartialFrame.waited, Config.truncationBits, this]
    rw [List.replicate_succ, takeSamples_cons, waits, Received.goOn_more, ih (gap + 1) (by omega)]
    congr 2
    omega

/-- A gap that reaches 11 bit times truncates the frame (R6). -/
theorem takeSamples_long_gap (chars : List Byte) (n : Nat) (long : 11 ≤ n) (rest : List Bool) :
    takeSamples (.awaiting chars) (List.replicate n true ++ rest) = .truncated := by
  obtain ⟨m, rfl⟩ : ∃ m, n = 10 + (1 + m) := ⟨n - 11, by omega⟩
  rw [List.replicate_add, List.replicate_add, List.append_assoc, List.append_assoc, takeSamples_append, PartialFrame.awaiting,
    takeSamples_gap chars 0 10 (by omega), Received.goOn_more]
  rfl

/-- A character after a gap shorter than 11 bit times (R2). -/
theorem takeSamples_gap_character (chars : List Byte) (n : Nat) (short : n < 11) (b : Byte) :
    takeSamples (.awaiting chars) (List.replicate n true ++ characterBits b) = judgeCharacters (chars ++ [b]) := by
  rw [takeSamples_append, PartialFrame.awaiting, takeSamples_gap chars 0 n (by omega), Received.goOn_more, takeSamples_character]

end Sys2Proof.Machine
end

section
/-! PROOFS. The contention unit's idle slot (R22–R27) and the outcomes of an own frame at it (R29–R34), the readback mismatch (R12) and the
stuck line (R13, R14). -/

namespace Sys2Proof.Machine

/-! ### The record in transmission -/

section

variable {s : State} {before after : List TxRecord} {r : TxRecord} (queue : s.cont.queue = before ++ r :: after)
  (sent : r.inTransmission = true) (others : ∀ x ∈ before ++ after, x.inTransmission = false)

include queue sent others

theorem State.find_transmitted : s.cont.queue.find? (·.inTransmission) = some r := by
  rw [List.find?_eq_some_iff_append]
  exact ⟨sent, before, after, queue, fun x hx => by simp [others x (List.mem_append_left _ hx)]⟩

/-- The record in transmission leaves the queue, the others keep their order. -/
theorem State.removeTransmitted_eq : s.removeTransmitted = s.withCont { s.cont with queue := before ++ after } := by
  have stays : ∀ l : List TxRecord, (∀ x ∈ l, x ∈ before ++ after) → l.filter (fun x : TxRecord => !x.inTransmission) = l := fun l h =>
    List.filter_eq_self.2 fun x hx => by simp [others x (h x hx)]
  rw [removeTransmitted, queue, List.filter_append, List.filter_cons_of_neg (by simp [sent]),
    stays before fun x => List.mem_append_left _, stays after fun x => List.mem_append_right _]

/-- A change of the record in transmission changes no other record. -/
theorem State.map_transmitted (f : TxRecord → TxRecord) :
    s.cont.queue.map (fun x => if x.inTransmission then f x else x) = before ++ f r :: after := by
  have stays : ∀ l : List TxRecord, (∀ x ∈ l, x ∈ before ++ after) → l.map (fun x => if x.inTransmission then f x else x) = l := fun l h =>
    (List.map_congr_left fun x hx => by simp [others x (h x hx)]).trans (List.map_id l)
  rw [queue, List.map_append, List.map_cons, if_pos sent, stays before fun x => List.mem_append_left _,
    stays after fun x => List.mem_append_right _]

/-- A failed attempt of a void record removes it in silence (R34). -/
theorem State.transmissionFailed_void (void : r.isVoid = true) :
    s.transmissionFailed = s.withCont { s.cont with queue := before ++ after } := by
  rw [transmissionFailed, find_transmitted queue sent others]
  simp only [void, if_true]
  exact removeTransmitted_eq queue sent others

/-- A failed attempt before the eighth: the count is raised and the record offered again (R29). -/
theorem State.transmissionFailed_again (void : r.isVoid = false) (fewer : r.attempts < 7) :
    s.transmissionFailed = s.withCont { s.cont with
      queue := before ++ { r with attempts := r.attempts + 1, inTransmission := false } :: after } := by
  rw [transmissionFailed, find_transmitted queue sent others]
  dsimp only
  rw [if_neg (by simp [void]), if_neg (by simp only [Config.attemptLimit]; omega),
    map_transmitted queue sent others fun x => { x with attempts := x.attempts + 1, inTransmission := false }]

/-- The eighth failure removes the record, with one TX_ABANDONED report (R29, R30). -/
theorem State.transmissionFailed_abandoned (void : r.isVoid = false) (eighth : 7 ≤ r.attempts) :
    s.transmissionFailed = (s.withCont { s.cont with queue := before ++ after }).report
      (.txAbandoned r.kind (abandonedDetail s.number r)) := by
  rw [transmissionFailed, find_transmitted queue sent others]
  simp only [void, Bool.false_eq_true, if_false]
  rw [if_pos (by simp only [Config.attemptLimit]; omega), removeTransmitted_eq queue sent others]

end

/-- A failed attempt changes the queue and the reports alone. -/
theorem State.transmissionFailed_frame (s : State) : s.transmissionFailed
    = (s.withCont { s.cont with queue := s.transmissionFailed.cont.queue }).withPort { s.port with
      reports := s.transmissionFailed.port.reports, attn := s.transmissionFailed.port.attn } := by
  unfold transmissionFailed
  repeat' split
  all_goals rfl

/-! ### The readback mismatch -/

/-- What the bits read so far and the mismatching one leave of the line unit: the character in progress goes on with a dominant bit,
which is a receive error where it was to be a stop bit (R1, R9, R12). -/
theorem State.afterMismatch_inStep {s : State} {bit : Nat} {f : PartialFrame} (inStep : s.line.afterSend = .inStep)
    (read : takeSamples (.awaiting []) ((bitsOfFrame s.line.sending).take bit) = .more f) (within : f.bits ≠ []) :
    ∃ l : LineUnit, s.afterMismatch bit = s.withLine l
      ∧ l.dominantRun = runAfter s.line.dominantRun ((bitsOfFrame s.line.sending).take bit ++ [false])
      ∧ (f.bits.length < 9 → l.receiver = .receive ∧ l.sof = s.line.sof ∧ l.frame = some { f with bits := f.bits ++ [false] })
      ∧ (9 ≤ f.bits.length → l.receiver = .seek ∧ l.frame = none) := by
  have after : takeSamples (.awaiting []) ((bitsOfFrame s.line.sending).take bit ++ [false])
      = if f.bits.length < 9 then .more { f with bits := f.bits ++ [false] } else .error := by
    rw [takeSamples_append, read, Received.goOn_more, takeSamples_cons]
    by_cases room : f.bits.length < 9 <;> simp [takeSample, within, room, takeSamples_nil]
  unfold afterMismatch
  simp only [inStep]
  unfold receive
  rw [after]
  by_cases room : f.bits.length < 9
  · rw [if_pos room]
    exact ⟨_, rfl, rfl, fun _ => ⟨rfl, rfl, rfl⟩, fun full => absurd room (by omega)⟩
  · rw [if_neg room]
    exact ⟨_, rfl, rfl, fun short => absurd short room, fun _ => ⟨rfl, rfl⟩⟩

/-- Settles O33: the attempt by the three outcomes of a failure, the receiver by `State.afterMismatch_inStep`. -/
theorem readbackMismatch : Obligations.ReadbackMismatch := by
  unfold Obligations.ReadbackMismatch
  intro s bit before after r f sends recessive queue sent others read within
  have frame := s.transmissionFailed_frame
  generalize hu : s.transmissionFailed = u at frame
  have line : u.line = s.line := by rw [frame]; rfl
  have took : exec (.readbackMismatch bit) s = .next (u.afterMismatch bit) := hu ▸ exec_readbackMismatch_send sends recessive
  obtain ⟨l, ended, inStep, off, seeks, run⟩ : ∃ l : LineUnit, u.afterMismatch bit = u.withLine l
      ∧ (s.line.afterSend = .inStep →
          (f.bits.length < 9 → l.receiver = .receive ∧ l.sof = s.line.sof ∧ l.frame = some { f with bits := f.bits ++ [false] })
          ∧ (9 ≤ f.bits.length → l.receiver = .seek ∧ l.frame = none))
      ∧ (s.line.afterSend = .off → l.receiver = .off ∧ l.dominantRun = 0)
      ∧ (s.line.afterSend = .seek → l.receiver = .seek)
      ∧ (s.line.afterSend ≠ .off →
          l.dominantRun = runAfter s.line.dominantRun ((bitsOfFrame s.line.sending).take bit ++ [false])) := by
    cases h : s.line.afterSend with
    | inStep =>
      obtain ⟨l, ended, run, short, full⟩ := State.afterMismatch_inStep (s := u) (line ▸ h) (line ▸ read) within
      rw [line] at run short
      exact ⟨l, ended, fun _ => ⟨short, full⟩, nofun, nofun, fun _ => run⟩
    | off => exact ⟨_, by simp only [State.afterMismatch, line, h]; rfl, nofun, fun _ => ⟨rfl, rfl⟩, nofun, fun other => absurd rfl other⟩
    | seek => exact ⟨_, by simp only [State.afterMismatch, line, h]; rfl, nofun, nofun, fun _ => rfl, fun _ => rfl⟩
  rw [ended] at took
  refine ⟨_, took, ?frame, fun h short => (inStep h).1 short, fun h full => (inStep h).2 (by omega), off, seeks, run,
    fun void => ?void, fun void fewer => ?again, fun void eighth => ?abandoned⟩
  case frame => rw [frame]; rfl
  case void =>
    rw [State.transmissionFailed_void queue sent others void] at hu
    subst hu
    exact ⟨rfl, rfl⟩
  case again =>
    rw [State.transmissionFailed_again queue sent others void fewer] at hu
    subst hu
    exact ⟨rfl, rfl⟩
  case abandoned =>
    rw [State.transmissionFailed_abandoned queue sent others void (by omega)] at hu
    subst hu
    refine ⟨rfl, ?_⟩
    cases h : r.payload <;> simp [State.report, State.stamped, State.abandonedDetail, h]

/-! ### The stuck line -/

/-- A stuck line: no frame in hand, receiver STUCK, muted, no idle period, and one LINE report unless muted before (R13). -/
theorem State.stick_blocks (s : State) :
    s.stick = ((s.withLine s.stick.line).withCont { s.cont with idle := false, slot := none, offered := none }).withPort
      { s.port with reports := s.stick.port.reports, attn := s.stick.port.attn }
    ∧ s.stick.line.receiver = .stuck ∧ s.stick.line.muted = true ∧ s.stick.line.frame = none ∧ s.stick.line.sof = none
    ∧ s.stick.line.errors = s.line.errors
    ∧ (s.line.muted = true → s.stick.port = s.port)
    ∧ s.stick.port.reports = (if s.line.muted = false then [s.stamped (.line .stuck)] else []).foldl arrive s.port.reports := by
  unfold stick
  cases muted : s.line.muted
  · exact ⟨rfl, rfl, rfl, rfl, rfl, rfl, nofun, rfl⟩
  · exact ⟨rfl, rfl, rfl, rfl, rfl, rfl, fun _ => rfl, rfl⟩

/-- Settles O34: outside SEND by `State.stick_blocks`; in SEND the attempt fails first, by its outcomes. -/
theorem stuckLine : Obligations.StuckLine := by
  unfold Obligations.StuckLine
  intro s
  refine ⟨fun state => ?listening, fun sends before r after queue sent others few => ?sending, exec_stuckRunEnd_stuck,
    fun muted state => ⟨_, exec_lineReleased_muted muted state, rfl, rfl⟩⟩
  case listening =>
    obtain ⟨frame, receiver, muted, held, sof, errors, silent, reports⟩ := s.stick_blocks
    refine ⟨_, exec_lineStuck_listening state, frame, receiver, muted, held, sof, errors, silent, fun unmuted => ?_⟩
    rw [reports, if_pos unmuted]
    rfl
  case sending =>
    dsimp only
    have frame := s.transmissionFailed_frame
    have failed : s.transmissionFailed.cont.queue = (if r.isVoid = true ∨ r.attempts = 7 then before ++ after
          else before ++ { r with attempts := r.attempts + 1, inTransmission := false } :: after)
        ∧ s.transmissionFailed.port.reports
          = (if r.isVoid = false ∧ r.attempts = 7 then [s.stamped (.txAbandoned r.kind (State.abandonedDetail s.number r))]
            else []).foldl arrive s.port.reports := by
      cases void : r.isVoid with
      | true => simp [State.transmissionFailed_void queue sent others void]
      | false =>
        by_cases eighth : r.attempts = 7
        · rw [State.transmissionFailed_abandoned queue sent others void (by omega)]
          simp [eighth]
          rfl
        · rw [State.transmissionFailed_again queue sent others void (by omega)]
          simp [eighth, void]
    obtain ⟨queue', reports'⟩ := failed
    generalize hu : s.transmissionFailed = u at frame queue' reports'
    have line : u.line = s.line := by rw [frame]; rfl
    by_cases off : s.line.afterSend = .off
    · refine ⟨_, exec_lineStuck_send_off sends off, ?_, ?_, fun _ => ?_, fun other => absurd off other, ?_, ?_, ?_, ?_⟩
      all_goals rw [hu]
      · rw [frame]; rfl
      · exact queue'
      · exact ⟨rfl, by simp [State.endSend, line], by rw [frame]; rfl⟩
      · rfl
      · rfl
      · simp [State.endSend, line]
      · simpa [State.endSend, off] using reports'
    · obtain ⟨sticks, receiver, muted, held, sof, errors, silent, reports⟩ := u.stick_blocks
      have cont : u.stick.cont = { u.cont with idle := false, slot := none, offered := none } := congrArg State.cont sticks
      have unchanged : u.stamped (.line .stuck) = s.stamped (.line .stuck) := by rw [frame]; rfl
      refine ⟨_, exec_lineStuck_send sends off, ?_, ?_, fun h => absurd h off, fun _ => ?_, ?_, ?_, ?_, ?_⟩
      all_goals rw [hu]
      · refine sticks.trans ?_
        rw [cont, frame]
        rfl
      · rw [cont]
        exact queue'
      · exact ⟨receiver, muted, by rw [cont]⟩
      · exact held
      · exact sof
      · exact errors.trans (by rw [line])
      · rw [reports, reports', List.foldl_append, unchanged, line]
        simp only [off, ne_eq, not_false_eq_true, true_and]

end Sys2Proof.Machine
end

section
/-! PROOFS. The idle slot: the offered frame (R23, R24) and whether it starts (R25, R66). -/

namespace Sys2Proof.Machine

/-! ### The offered frame -/

/-- The class of a record by its payload (R3). -/
theorem TxRecord.frameClass_eq (r : TxRecord) : r.frameClass = match r.payload with
    | .beacon _ _ => 0
    | .refuse _ _ _ => 1
    | .action _ | .amend _ _ _ | .cancel _ _ => 2
    | .event _ _ _ _ _ => 3 := by
  rw [frameClass, kind]
  cases r.payload <;> rfl

theorem TxRecord.frameClass_le (r : TxRecord) : r.frameClass ≤ 3 := by
  rw [frameClass, kind]
  cases r.payload <;> simp [Payload.kind, FrameKind.frameClass]

/-- Class 0 is that of the BEACON (R3). -/
theorem TxRecord.frameClass_eq_zero_iff (r : TxRecord) : r.frameClass = 0 ↔ r.kind = .beacon := by
  rw [frameClass]
  cases r.kind <;> simp [FrameKind.frameClass]

theorem takesKind_iff (kind : FrameKind) (state : StationState) :
    takesKind kind state = true ↔ state = .member ∨ (state = .joining ∧ kind = .beacon) := by
  cases state <;> simp [takesKind]

/-- The lowest class present is that of a record that no other undercuts. -/
theorem lowestClass_eq {queue : List TxRecord} {r : TxRecord} (mem : r ∈ queue) (least : ∀ x ∈ queue, r.frameClass ≤ x.frameClass) :
    lowestClass queue = r.frameClass := by
  unfold lowestClass
  apply le_antisymm
  · refine not_lt.1 fun h => ?_
    exact absurd (((lt_foldl_min_iff TxRecord.frameClass _ _ _).1 h).2 r mem) (lt_irrefl _)
  · refine not_lt.1 fun h => ?_
    rcases (foldl_min_lt_iff TxRecord.frameClass _ _ _).1 h with above | ⟨x, hx, below⟩
    · exact absurd r.frameClass_le (by omega)
    · exact absurd (least x hx) (by omega)

/-- Nothing is offered of an empty queue or while a record is in transmission (R23). -/
theorem offeredPlace_eq_none {queue : List TxRecord} (h : queue = [] ∨ ∃ x ∈ queue, x.inTransmission = true) :
    offeredPlace queue = none := by
  rcases h with rfl | ⟨x, hx, sent⟩
  · rfl
  · exact if_pos (List.any_eq_true.2 ⟨x, hx, sent⟩)

/-- The offered frame is the first of the lowest class (R23). -/
theorem offeredPlace_eq_some {before after : List TxRecord} {r : TxRecord}
    (unsent : ∀ x ∈ before ++ r :: after, x.inTransmission = false) (least : ∀ x ∈ before ++ r :: after, r.frameClass ≤ x.frameClass)
    (first : ∀ x ∈ before, x.frameClass ≠ r.frameClass) : offeredPlace (before ++ r :: after) = some before.length := by
  have lowest := lowestClass_eq (List.mem_append_right before List.mem_cons_self) least
  have none : before.findIdx? (fun x => x.frameClass = r.frameClass) = none := by simpa using first
  unfold offeredPlace
  rw [if_neg (by simpa only [List.any_eq_true, not_exists, not_and, Bool.not_eq_true] using unsent), lowest, List.findIdx?_append, none]
  simp [List.findIdx?_cons]

section

variable {s : State}

theorem State.chooseOffer_eq_none (h : s.cont.queue = [] ∨ ∃ x ∈ s.cont.queue, x.inTransmission = true) : s.chooseOffer = none := by
  simp [chooseOffer, offeredPlace_eq_none h]

theorem State.chooseOffer_eq_some {before after : List TxRecord} {r : TxRecord} (queue : s.cont.queue = before ++ r :: after)
    (unsent : ∀ x ∈ s.cont.queue, x.inTransmission = false) (least : ∀ x ∈ s.cont.queue, r.frameClass ≤ x.frameClass)
    (first : ∀ x ∈ before, x.frameClass ≠ r.frameClass) :
    s.chooseOffer = some { place := before.length, value := 16 * r.frameClass + rank s.number s.round } := by
  rw [queue] at unsent least
  simp [chooseOffer, queue, offeredPlace_eq_some unsent least first, contentionValue]

/-! ### The slot -/

/-- A slot with no frame offered only begins (R22, R23). -/
theorem exec_idleSlot_silent (idle : s.cont.idle = true) (silent : s.chooseOffer = none) : exec .idleSlot s = .next s.beginSlot := by
  have offered : s.beginSlot.cont.offered = none := silent
  simp [exec, execIdleSlot, idle, offered]

/-- A slot with a frame offered begins, and the frame starts if it may (R25). -/
theorem exec_idleSlot_offer {o : Offer} (idle : s.cont.idle = true) (offer : s.chooseOffer = some o) : exec .idleSlot s
    = .next (if s.beginSlot.mayStart s.nextSlot o then s.beginSlot.startFrame o.place else s.beginSlot) := by
  have offered : s.beginSlot.cont.offered = some o := offer
  simp only [exec, execIdleSlot, idle, if_true, offered]
  split <;> rfl

/-- A frame starts: its record is marked, the idle period ends, and the line unit sends (R11, R25). -/
theorem State.startFrame_eq {before after : List TxRecord} {r : TxRecord} (queue : s.cont.queue = before ++ r :: after) :
    s.startFrame before.length = (s.withLine { s.line with
        receiver := .send, sof := some s.sofNow, frame := none, sending := frameBytes s.number s.now r.payload, afterSend := .inStep,
        dominantRun := 0, recessiveRun := 0 }).withCont
      { queue := before ++ { r with inTransmission := true } :: after, idle := false, slot := none, offered := none } := by
  have here : s.cont.queue[before.length]? = some r := by simp [queue]
  have set : s.cont.queue.set before.length { r with inTransmission := true } = before ++ { r with inTransmission := true } :: after := by
    simp [queue]
  unfold startFrame
  rw [here]
  dsimp only
  rw [set]
  rfl

/-- The offered frame starts exactly in its slot, with the receiver in WAIT, the line not muted, the state admitting its kind, and no
departure handed over that its beacon would precede (R25, R66). -/
theorem State.mayStart_beginSlot_iff {before after : List TxRecord} {r : TxRecord} (value : Nat)
    (queue : s.cont.queue = before ++ r :: after) :
    s.beginSlot.mayStart s.nextSlot { place := before.length, value := value } = true ↔
      value = s.nextSlot.val ∧ s.line.receiver = .wait ∧ s.line.muted = false
      ∧ (s.member.state = .member ∨ (s.member.state = .joining ∧ r.frameClass = 0))
      ∧ (r.frameClass = 0 → ∀ h, s.owed.verdict = some h → h.verdict ≠ .split ∧ h.verdict ≠ .joinFailure) := by
  have here : s.beginSlot.cont.queue[before.length]? = some r := by
    show s.cont.queue[before.length]? = some r
    simp [queue]
  have undeparted : s.beginSlot.departureHanded = false ↔
      ∀ h, s.owed.verdict = some h → h.verdict ≠ .split ∧ h.verdict ≠ .joinFailure := by
    rw [← Bool.not_eq_true, departureHanded_iff]
    show ¬ (∃ h, s.owed.verdict = some h ∧ _) ↔ _
    simp only [not_exists, not_and, not_or, ne_eq]
  rw [mayStart_iff _ _ _ r here, undeparted, takesKind_iff, ← TxRecord.frameClass_eq_zero_iff]
  exact Iff.rfl

end

/-- Settles O23: the offer by `State.chooseOffer_eq_some`, its start by `State.mayStart_beginSlot_iff`. -/
theorem idleSlot : Obligations.IdleSlot := by
  unfold Obligations.IdleSlot
  intro s idle frameClass slot
  have sameClass : frameClass = TxRecord.frameClass := funext fun x => x.frameClass_eq.symm
  have sameSlot : slot = s.nextSlot := rfl
  clear_value frameClass slot
  subst sameClass sameSlot
  refine ⟨fun none => ?silent, fun before after r queue rest first => ?offered⟩
  case silent =>
    have silent := State.chooseOffer_eq_none none
    refine ⟨_, exec_idleSlot_silent idle silent, ?_⟩
    rw [State.beginSlot, silent]
    rfl
  case offered =>
    have offer := State.chooseOffer_eq_some queue (fun x hx => (rest x hx).1) (fun x hx => (rest x hx).2) first
    refine ⟨_, exec_idleSlot_offer idle offer, fun waits => ?_, fun starts => ?_⟩
    · rw [if_neg (mt (State.mayStart_beginSlot_iff _ queue).1 waits)]
      rw [State.beginSlot, offer]
      rfl
    · rw [if_pos ((State.mayStart_beginSlot_iff _ queue).2 starts), State.startFrame_eq (s := s.beginSlot) queue]
      rfl

end Sys2Proof.Machine
end

section
/-! PROOFS. The checks on the characters of a frame (R3, R5, R7), the frame check bit by bit (R5), and the receive errors (R9). -/

namespace Sys2Proof.Machine

/-! ### The frame check, bit by bit -/

/-- One bit of a byte into the frame check, most significant bit first (R5). -/
def crcBit (crc : Half) (bit : Bool) : Half := if crc.msb ≠ bit then (crc <<< 1) ^^^ 0x1021 else crc <<< 1

/-- What is added to the check before its shifts passes through them, and decides with its top bit (R5). -/
theorem crcBit_xor (crc mask : Half) : crcBit (crc ^^^ mask) false = crcBit crc mask.msb ^^^ (mask <<< 1) := by
  unfold crcBit
  rw [BitVec.msb_xor, BitVec.shiftLeft_xor_distrib]
  cases crc.msb <;> cases mask.msb <;> simp <;> ac_rfl

/-- Bit `7 - n` of a byte is the top one after `n` shifts of the byte in the upper half of the check. -/
theorem msb_shifted (b : Byte) (n : Nat) (h : n < 8) : (b.zeroExtend 16 <<< (8 + n)).msb = b.getLsbD (7 - n) := by
  have index : 15 - (8 + n) = 7 - n := by omega
  have inside : ¬ 15 < 8 + n := by omega
  simp [BitVec.msb_eq_getLsbD_last, index, inside]

/-- The check after the first `n` shifts of a byte: the bits shifted in so far have decided, the others wait. -/
theorem crcByte_shifts (crc : Half) (b : Byte) (n : Nat) (h : n ≤ 8) :
    (List.range n).foldl (fun c _ => crcBit c false) (crc ^^^ (b.zeroExtend 16 <<< 8))
      = (List.range n).foldl (fun c i => crcBit c (b.getLsbD (7 - i))) crc ^^^ (b.zeroExtend 16 <<< (8 + n)) := by
  induction n with
  | zero => rfl
  | succ n ih =>
    rw [List.range_succ, List.foldl_append, List.foldl_append, ih (by omega), List.foldl_cons, List.foldl_nil, crcBit_xor,
      msb_shifted b n (by omega), ← BitVec.shiftLeft_add]
    rfl

/-- A byte enters the check bit by bit (R5). -/
theorem crcByte_eq (crc : Half) (b : Byte) :
    crcByte crc b = [7, 6, 5, 4, 3, 2, 1, 0].foldl (fun c i => crcBit c (b.getLsbD i)) crc := by
  have shifts := crcByte_shifts crc b 8 (le_refl 8)
  have gone : b.zeroExtend 16 <<< (8 + 8) = 0#16 := BitVec.shiftLeft_eq_zero (le_refl 16)
  rw [gone, BitVec.xor_zero] at shifts
  have model : crcByte crc b = (List.range 8).foldl (fun c _ => crcBit c false) (crc ^^^ (b.zeroExtend 16 <<< 8)) := by
    unfold crcByte crcBit
    simp
  rw [model, shifts]
  rfl

theorem crc16_append (l : List Byte) (b : Byte) : crc16 (l ++ [b]) = crcByte (crc16 l) b := by
  rw [crc16, List.foldl_append]
  rfl

/-! ### Fields of a byte -/

theorem field_eq (b : Byte) (lo n : Nat) : field b lo n = b.toNat / 2 ^ lo % 2 ^ n := by
  simp [field, Nat.shiftRight_eq_div_pow]

theorem stationIn_val (b : Byte) : (stationIn b).val = b.toNat % 16 := by simp [stationIn]

theorem getLsbD_eq_decide (b : Byte) (n : Nat) : b.getLsbD n = decide (b.toNat / 2 ^ n % 2 = 1) := by
  rw [BitVec.getLsbD, Nat.testBit_eq_decide_div_mod_eq]

/-- The kind of a header is that of its top three bits (R3). -/
theorem frameKindIn_eq_some_iff (b : Byte) (k : FrameKind) : frameKindIn b = some k ↔ b.toNat / 32 = k.code := by
  have top : field b 5 3 = b.toNat / 32 := by
    have := b.isLt
    rw [field_eq]
    omega
  have most : b.toNat / 32 < 8 := by have := b.isLt; omega
  unfold frameKindIn
  rw [top]
  generalize b.toNat / 32 = n at most
  interval_cases n <;> cases k <;> simp [FrameKind.code]

/-- A header of kind 0 or 7 names no kind (R3). -/
theorem frameKindIn_eq_none_iff (b : Byte) : frameKindIn b = none ↔ b.toNat / 32 = 0 ∨ b.toNat / 32 = 7 := by
  have top : field b 5 3 = b.toNat / 32 := by
    have := b.isLt
    rw [field_eq]
    omega
  have most : b.toNat / 32 < 8 := by have := b.isLt; omega
  unfold frameKindIn
  rw [top]
  generalize b.toNat / 32 = n at most
  interval_cases n <;> simp

theorem kindIn_eq_pulse_iff (b : Byte) : kindIn b = .pulse ↔ b.toNat / 8 % 4 = 3 := by
  have bits : field b 3 2 = b.toNat / 8 % 4 := field_eq b 3 2
  have most : b.toNat / 8 % 4 < 4 := Nat.mod_lt _ (by omega)
  unfold kindIn
  rw [bits]
  generalize b.toNat / 8 % 4 = n at most
  interval_cases n <;> simp

/-- The payload length that a control byte calls for (R3). -/
theorem actionLength_eq (control : Byte) : actionLength control
    = 9 + (if control.toNat / 8 % 4 = 3 then 2 else 0) + (if control.toNat / 64 % 2 = 1 then 5 else 0) := by
  simp only [actionLength, kindIn_eq_pulse_iff, getLsbD_eq_decide, decide_eq_true_eq, Nat.reducePow]

/-! ### The checks on the characters -/

/-- The kind is judged at the header (R3, R7). -/
theorem judgeCharacters_header (header : Byte) : judgeCharacters [header]
    = if frameKindIn header = none then .error else .more (.awaiting [header]) := by
  unfold judgeCharacters
  rw [show byteAt [header] 0 = header from rfl]
  cases frameKindIn header <;> simp

section

variable {header length : Byte} {k : FrameKind} (kind : frameKindIn header = some k)

include kind

/-- The length is judged against the kind at the length character (R3, R7). -/
theorem judgeCharacters_bad_length (rest : List Byte) (bad : length.toNat ∉ k.lengths) :
    judgeCharacters (header :: length :: rest) = .error := by
  unfold judgeCharacters
  rw [show byteAt (header :: length :: rest) 0 = header from rfl, show byteAt (header :: length :: rest) 1 = length from rfl, kind]
  simp [bad]

/-- Characters short of the frame's end are taken (R7). -/
theorem judgeCharacters_more (rest : List Byte) (good : length.toNat ∈ k.lengths) (short : rest.length < length.toNat + 2) :
    judgeCharacters (header :: length :: rest) = .more (.awaiting (header :: length :: rest)) := by
  unfold judgeCharacters
  rw [show byteAt (header :: length :: rest) 0 = header from rfl, show byteAt (header :: length :: rest) 1 = length from rfl, kind]
  simp [good, short]

/-- At the second check character the check is judged, and then the fields (R5, R7). -/
theorem judgeCharacters_last {payload : List Byte} (low high : Byte) (good : length.toNat ∈ k.lengths)
    (whole : payload.length = length.toNat) :
    judgeCharacters (header :: length :: (payload ++ [low, high])) =
      if crc16 (header :: length :: payload) ≠ high ++ low then .error
      else ((payloadOf k payload).map fun p => Received.valid { sender := stationIn header, payload := p }).getD .error := by
  have checked : (header :: length :: (payload ++ [low, high])).take (length.toNat + 2) = header :: length :: payload := by
    simp [← whole]
  have check : halfAt (header :: length :: (payload ++ [low, high])) (length.toNat + 2) = high ++ low := by
    simp [halfAt, byteAt, ← whole, List.getD_eq_getElem?_getD]
  have body : ((header :: length :: (payload ++ [low, high])).drop 2).take length.toNat = payload := by simp [← whole]
  unfold judgeCharacters
  rw [show byteAt (header :: length :: (payload ++ [low, high])) 0 = header from rfl,
    show byteAt (header :: length :: (payload ++ [low, high])) 1 = length from rfl, kind]
  simp only [checked, check, body]
  rw [if_neg (by simp), if_neg (by simpa using good), if_neg (by simp [whole])]
  cases payloadOf k payload <;> rfl

end

/-- A payload is read for every kind, but for an ACTION whose length disagrees with its control byte (R3). -/
theorem payloadOf_eq_none_iff (k : FrameKind) (l : List Byte) :
    payloadOf k l = none ↔ k = .action ∧ l.length ≠ actionLength (byteAt l 8) := by
  cases k <;> simp [payloadOf]

/-- A payload read for a kind is of that kind. -/
theorem kind_of_payloadOf {k : FrameKind} {l : List Byte} {p : Payload} (h : payloadOf k l = some p) : p.kind = k := by
  cases k
  case action =>
    obtain ⟨_, h⟩ := Option.ite_none_right_eq_some.1 h
    rw [← Option.some.inj h]
    rfl
  all_goals
    rw [← Option.some.inj h]
    rfl

/-- A character that comes after the others, and what follows it. -/
theorem takeSamples_awaiting (chars : List Byte) (b : Byte) (rest : List Bool) :
    takeSamples (.awaiting chars) (characterBits b ++ rest) = (judgeCharacters (chars ++ [b])).goOn rest := by
  rw [takeSamples_append, PartialFrame.awaiting, takeSamples_character]

end Sys2Proof.Machine
end

section
/-! PROOFS. The receive errors of a frame and what each leaves (R6, R7, R9). -/

namespace Sys2Proof.Machine

/-! ### A receive error at the line unit -/

section

variable (s : State)

/-- A receive error discards the frame, counts one error in JOINING and MEMBER, and goes to SEEK (R7, R9). -/
theorem State.receiveError_eq : s.receiveError = s.withLine { s.line with
    receiver := .seek, sof := none, frame := none
    errors := if s.member.state = .joining ∨ s.member.state = .member then min (s.line.errors + 1) 65535 else s.line.errors } := by
  simp only [receiveError, Bool.or_eq_true, decide_eq_true_eq]
  rfl

/-- What a receive error leaves, whatever the runs of the line then are. -/
def State.FailsFrame (t : State) : Prop :=
  t = s.withLine t.line ∧ t.line.receiver = .seek ∧ t.line.sof = none ∧ t.line.frame = none
  ∧ t.line.errors = (if s.member.state = .joining ∨ s.member.state = .member then min (s.line.errors + 1) 65535 else s.line.errors)
  ∧ t.line.muted = s.line.muted

theorem State.failsFrame_receiveError (dominant recessive : Nat) :
    s.FailsFrame (s.withLine { s.line with dominantRun := dominant, recessiveRun := recessive }).receiveError := by
  rw [receiveError_eq]
  exact ⟨rfl, rfl, rfl, rfl, rfl, rfl⟩

theorem State.failsFrame_truncate (f : PartialFrame) (samples : List Bool) : s.FailsFrame (s.truncate f samples) :=
  s.failsFrame_receiveError _ _

theorem State.failsFrame_receive (atOnce : Bool) {f : PartialFrame} {samples : List Bool}
    (fails : takeSamples f samples = .error ∨ takeSamples f samples = .truncated) : s.FailsFrame (s.receive atOnce f samples) := by
  unfold receive
  rcases fails with h | h <;> rw [h]
  · exact s.failsFrame_receiveError _ _
  · exact s.failsFrame_truncate f samples

/-- Samples that neither complete nor fail leave the frame in assembly (log 4). -/
theorem State.receive_more (atOnce : Bool) {f f' : PartialFrame} {samples : List Bool} (more : takeSamples f samples = .more f') :
    s.receive atOnce f samples = s.withLine { s.line with
      dominantRun := runAfter s.line.dominantRun samples, frame := some f', recessiveRun := s.runAtGap f samples f'.gap } := by
  unfold receive
  rw [more]
  rfl

end

/-! ### The characters of a frame by their fields -/

/-- The payload lengths by the code of the kind (R3). -/
theorem lengths_by_code (k : FrameKind) :
    ([[], [8], [9, 11, 14, 16], [9], [4], [9], [4], []] : List (List Nat)).getD k.code [] = k.lengths := by cases k <;> rfl

/-- A header whose kind has a length names a kind, of those lengths. -/
theorem exists_kind_of_length {header : Byte} {n : Nat}
    (h : n ∈ ([[], [8], [9, 11, 14, 16], [9], [4], [9], [4], []] : List (List Nat)).getD (header.toNat / 32) []) :
    ∃ k, frameKindIn header = some k ∧ header.toNat / 32 = k.code ∧ n ∈ k.lengths := by
  cases kind : frameKindIn header with
  | none => rcases (frameKindIn_eq_none_iff header).1 kind with code | code <;> simp [code] at h
  | some k =>
    have code := (frameKindIn_eq_some_iff header k).1 kind
    rw [code, lengths_by_code] at h
    exact ⟨k, rfl, code, h⟩

theorem append_eq_iff_toNat (check : Half) (low high : Byte) : check = high ++ low ↔ check.toNat = low.toNat + 256 * high.toNat := by
  rw [← BitVec.toNat_inj, BitVec.toNat_append, ← Nat.shiftLeft_add_eq_or_of_lt low.isLt, Nat.shiftLeft_eq]
  omega

/-- Settles O25: the failures by `State.FailsFrame`, the characters by the equations of `judgeCharacters`. -/
theorem frameErrors : Obligations.FrameErrors := by
  unfold Obligations.FrameErrors
  refine ⟨fun s f receives frame => ⟨fun gap => ?truncated, fun event samples of fails => ?fails, fun event samples f' of more => ?more⟩,
    fun chars n rest => ⟨fun short => ?gap, fun long => takeSamples_long_gap chars n long rest⟩, fun chars b rest => ?framing,
    fun l b => ⟨rfl, (crc16_append l b).trans (crcByte_eq _ b)⟩, fun header length low high rest => ?characters⟩
  case truncated => exact ⟨_, exec_frameTruncated_gap receives frame gap, s.failsFrame_truncate f []⟩
  case fails =>
    obtain ⟨atOnce, took⟩ := exec_frameCompletion_receive of receives frame
    exact ⟨_, took, s.failsFrame_receive atOnce fails⟩
  case more =>
    obtain ⟨atOnce, took⟩ := exec_frameCompletion_receive of receives frame
    rw [s.receive_more atOnce more] at took
    exact ⟨_, took, rfl, receives, rfl, rfl, rfl, rfl⟩
  case gap =>
    rw [takeSamples_append, takeSamples_gap chars 0 n (by omega), Received.goOn_more, takeSamples_cons, takeSample_start rfl]
    rfl
  case framing =>
    have bits : (characterBits b).take 9 = false :: List.ofFn fun i : Fin 8 => b.getLsbD i := rfl
    rw [bits, takeSamples_append, PartialFrame.awaiting, takeSamples_started chars 0 _ (by simp), Received.goOn_more, takeSamples_cons,
      takeSample_dominant_stop (by simp)]
    rfl
  case characters =>
    dsimp only
    refine ⟨?header, fun zero seven => ?length, fun good part b short => ?part, fun good payload whole => ?last⟩
    case header =>
      rw [takeSamples_awaiting, List.nil_append, judgeCharacters_header]
      simp only [← frameKindIn_eq_none_iff]
      split <;> rfl
    case length =>
      obtain ⟨k, kind⟩ := Option.ne_none_iff_exists'.1 fun none =>
        ((frameKindIn_eq_none_iff header).1 none).elim zero seven
      rw [(frameKindIn_eq_some_iff header k).1 kind, lengths_by_code, takeSamples_awaiting, List.singleton_append]
      by_cases good : length.toNat ∈ k.lengths
      · rw [judgeCharacters_more kind [] good (by simp), if_pos good]
        rfl
      · rw [judgeCharacters_bad_length kind [] good, if_neg good]
        rfl
    case part =>
      obtain ⟨k, kind, _, good⟩ := exists_kind_of_length good
      rw [takeSamples_awaiting, List.cons_append, List.cons_append, judgeCharacters_more kind _ good (by simp; omega)]
      rfl
    case last =>
      obtain ⟨k, kind, code, good⟩ := exists_kind_of_length good
      have action : header.toNat / 32 = 2 ↔ k = .action := by rw [code]; cases k <;> simp [FrameKind.code]
      rw [takeSamples_awaiting, List.cons_append, List.cons_append, List.append_assoc, List.singleton_append,
        judgeCharacters_last kind low high good whole]
      simp only [ne_eq, append_eq_iff_toNat, action, ← actionLength_eq]
      refine ⟨fun bad => by rw [if_pos bad]; rfl, fun isAction bad => ?_, fun check agrees => ?_⟩
      · have none : payloadOf k payload = none := (payloadOf_eq_none_iff k payload).2 ⟨isAction, by rw [whole]; exact bad⟩
        rw [none]
        split <;> rfl
      · have some : payloadOf k payload ≠ none := fun none => by
          obtain ⟨isAction, bad⟩ := (payloadOf_eq_none_iff k payload).1 none
          exact bad (whole.trans (agrees isAction))
        obtain ⟨p, read⟩ := Option.ne_none_iff_exists'.1 some
        rw [if_neg (not_not.2 check), read]
        exact ⟨_, rfl, stationIn_val header, by rw [code, ← kind_of_payloadOf read]⟩

end Sys2Proof.Machine
end

section
/-! PROOFS. Frames as sent and as received (R2–R5, R7, R11, R185): the bytes of each kind, the fields that a receiver reads of them, and
the assembly of a whole frame from its bits. -/

namespace Sys2Proof.Machine

/-! ### Bytes as sent -/

theorem halfBytes_eq (h : Half) : halfBytes h = [.ofNat 8 (h.toNat % 256), .ofNat 8 (h.toNat / 256)] := by
  have low : h.extractLsb' 0 8 = .ofNat 8 (h.toNat % 256) := BitVec.eq_of_toNat_eq (by simp)
  have high : h.extractLsb' 8 8 = .ofNat 8 (h.toNat / 256) := BitVec.eq_of_toNat_eq (by simp [Nat.shiftRight_eq_div_pow])
  rw [halfBytes, low, high]

theorem timeBytes_eq (t : Time) : timeBytes t = [.ofNat 8 (t.toNat % 256), .ofNat 8 (t.toNat / 2 ^ 8 % 256),
    .ofNat 8 (t.toNat / 2 ^ 16 % 256), .ofNat 8 (t.toNat / 2 ^ 24)] := by
  have low : (t.extractLsb' 0 16).toNat = t.toNat % 2 ^ 16 := by simp
  have high : (t.extractLsb' 16 16).toNat = t.toNat / 2 ^ 16 := by
    have := t.isLt
    simp only [BitVec.extractLsb'_toNat, Nat.shiftRight_eq_div_pow]
    omega
  have second : t.toNat % 2 ^ 16 / 256 = t.toNat / 2 ^ 8 % 256 := by omega
  have fourth : t.toNat / 2 ^ 16 / 256 = t.toNat / 2 ^ 24 := by omega
  have first : t.toNat % 2 ^ 16 % 256 = t.toNat % 256 := by omega
  rw [timeBytes, halfBytes_eq, halfBytes_eq, low, high, first, second, fourth]
  rfl

theorem header_eq (number : Station) (kind : FrameKind) :
    inBits 5 kind.code ||| inBits 0 number = .ofNat 8 (number.val + 32 * kind.code) := by
  revert number
  cases kind <;> decide

theorem beaconFlags_eq (member alone : Bool) :
    flagBit 0 member ||| flagBit 1 alone = .ofNat 8 ((if member then 1 else 0) + 2 * (if alone then 1 else 0)) := by
  revert member alone
  decide

theorem controlByte_eq (f : ActionFields) : controlByte f = .ofNat 8 (f.line.val + 8 * f.kind.code
    + 32 * (if f.notify then 1 else 0) + 64 * (if f.rep.isSome then 1 else 0)) := by
  rw [controlByte]
  generalize f.line = line, f.kind = kind, f.notify = notify, f.rep.isSome = repeats
  revert line notify repeats
  cases kind <;> decide

theorem eventByte_eq (channel : Fin 8) (edge : EdgeDir) :
    inBits 0 channel ||| inBits 3 edge.code = .ofNat 8 (channel.val + 8 * if edge = .rise then 0 else 1) := by
  revert channel
  cases edge <;> decide

theorem originByte_eq (origin : Station) : inBits 0 origin = .ofNat 8 origin.val := by
  revert origin
  decide

/-! ### Fields as received -/

/-- A 16-bit field from its two bytes. -/
theorem half_of_bytes (h : Half) : h.extractLsb' 8 8 ++ h.extractLsb' 0 8 = h := by
  rw [eq_comm, append_eq_iff_toNat]
  have := h.isLt
  simp only [BitVec.extractLsb'_toNat, Nat.shiftRight_eq_div_pow]
  omega

/-- A 32-bit field from its four bytes. -/
theorem time_of_bytes (t : Time) :
    ((t.extractLsb' 16 16).extractLsb' 8 8 ++ (t.extractLsb' 16 16).extractLsb' 0 8)
      ++ ((t.extractLsb' 0 16).extractLsb' 8 8 ++ (t.extractLsb' 0 16).extractLsb' 0 8) = t := by
  rw [half_of_bytes, half_of_bytes]
  apply BitVec.eq_of_toNat_eq
  rw [BitVec.toNat_append, ← Nat.shiftLeft_add_eq_or_of_lt (BitVec.isLt _), Nat.shiftLeft_eq]
  have := t.isLt
  simp only [BitVec.extractLsb'_toNat, Nat.shiftRight_eq_div_pow]
  omega

theorem stationIn_header (number : Station) (kind : FrameKind) : stationIn (inBits 5 kind.code ||| inBits 0 number) = number := by
  revert number
  cases kind <;> decide

theorem frameKindIn_header (number : Station) (kind : FrameKind) :
    frameKindIn (inBits 5 kind.code ||| inBits 0 number) = some kind := by
  revert number
  cases kind <;> decide

theorem beaconFlags_read (member alone : Bool) : (flagBit 0 member ||| flagBit 1 alone).getLsbD 0 = member
    ∧ (flagBit 0 member ||| flagBit 1 alone).getLsbD 1 = alone := by
  revert member alone
  decide

/-- The control byte of an ACTION holds its line, its kind and its flags. -/
theorem controlByte_read (f : ActionFields) : eighthIn (controlByte f) = f.line ∧ kindIn (controlByte f) = f.kind
    ∧ (controlByte f).getLsbD 5 = f.notify ∧ (controlByte f).getLsbD 6 = f.rep.isSome := by
  rw [controlByte]
  generalize f.line = line, f.kind = kind, f.notify = notify, f.rep.isSome = repeats
  revert line notify repeats
  cases kind <;> decide

theorem eventByte_read (channel : Fin 8) (edge : EdgeDir) : eighthIn (inBits 0 channel ||| inBits 3 edge.code) = channel
    ∧ edgeIn (inBits 0 channel ||| inBits 3 edge.code) = edge := by
  revert channel
  cases edge <;> decide

theorem station_read (origin : Station) : stationIn (inBits 0 origin) = origin := by
  revert origin
  decide

/-- The length of a payload is one that its kind allows (R3). -/
theorem length_payloadBytes_mem (time : Time) (p : Payload) : (payloadBytes time p).length ∈ p.kind.lengths := by
  cases p with
  | action f => cases hw : f.width <;> cases hr : f.rep <;> simp [payloadBytes, hw, hr, halfBytes, timeBytes, repeatBytes, Payload.kind,
      FrameKind.lengths]
  | _ => simp [payloadBytes, halfBytes, timeBytes, repeatBytes, Payload.kind, FrameKind.lengths]

/-- An ACTION's length is the one that its control byte calls for (R3). -/
theorem length_payloadBytes_action (time : Time) {f : ActionFields} (wellFormed : f.width.isSome = decide (f.kind = .pulse)) :
    (payloadBytes time (.action f)).length = actionLength (controlByte f) := by
  obtain ⟨_, kind, _, repeats⟩ := controlByte_read f
  rw [actionLength, kind, repeats]
  cases hw : f.width <;> cases hr : f.rep <;> simp_all [payloadBytes, halfBytes, timeBytes, repeatBytes]

/-- The fields of an ACTION are read as they were sent (R4, R185). -/
theorem actionFieldsAt_payloadBytes (time : Time) {f : ActionFields} (wellFormed : f.width.isSome = decide (f.kind = .pulse)) :
    actionFieldsAt (payloadBytes time (.action f)) 0 = f := by
  obtain ⟨line, kind, notify, repeats⟩ := controlByte_read f
  have control : byteAt (payloadBytes time (.action f)) (0 + 8) = controlByte f := rfl
  have selector : halfAt (payloadBytes time (.action f)) 0 = f.selector := half_of_bytes _
  have serial : halfAt (payloadBytes time (.action f)) (0 + 2) = f.serial := half_of_bytes _
  have due : timeAt (payloadBytes time (.action f)) (0 + 4) = f.due := time_of_bytes _
  have width : (if f.kind = .pulse then some (halfAt (payloadBytes time (.action f)) (0 + 9)) else none) = f.width := by
    cases hw : f.width with
    | none => rw [if_neg (by simpa [hw] using wellFormed)]
    | some w =>
      rw [if_pos (by simpa [hw] using wellFormed), payloadBytes, hw]
      exact congrArg some (half_of_bytes w)
  have rep : (if (controlByte f).getLsbD 6 = true then
      some { period := timeAt (payloadBytes time (.action f)) (if f.kind = .pulse then 0 + 11 else 0 + 9),
             count := byteAt (payloadBytes time (.action f)) ((if f.kind = .pulse then 0 + 11 else 0 + 9) + 4) : Repeat }
      else none) = f.rep := by
    rw [repeats, payloadBytes]
    cases hr : f.rep with
    | none => rfl
    | some r =>
      rw [Option.isSome_some, if_pos rfl]
      cases hw : f.width with
      | none =>
        rw [show (if f.kind = .pulse then 0 + 11 else 0 + 9) = 9 from if_neg (by simpa [hw] using wellFormed)]
        exact congrArg (fun period => some { r with period := period }) (time_of_bytes r.period)
      | some w =>
        rw [show (if f.kind = .pulse then 0 + 11 else 0 + 9) = 11 from if_pos (by simpa [hw] using wellFormed)]
        exact congrArg (fun period => some { r with period := period }) (time_of_bytes r.period)
  unfold actionFieldsAt
  simp only [control, selector, serial, due, line, kind, notify, width, rep]

/-- The fields of a payload are read as they were sent (R4, R7, R11, R185). -/
theorem payloadOf_payloadBytes (time : Time) {p : Payload} (wellFormed : p.wellFormed = true) :
    payloadOf p.kind (payloadBytes time p) = some (p.sentAt time) := by
  cases p with
  | beacon time' b =>
    obtain ⟨member, alone⟩ := beaconFlags_read b.member b.alone
    have stamp : timeAt (payloadBytes time (.beacon time' b)) 0 = time := time_of_bytes time
    have flags : byteAt (payloadBytes time (.beacon time' b)) 4 = flagBit 0 b.member ||| flagBit 1 b.alone := rfl
    have count : byteAt (payloadBytes time (.beacon time' b)) 5 = b.count := rfl
    have bitmap : halfAt (payloadBytes time (.beacon time' b)) 6 = b.bitmap := half_of_bytes _
    simp only [Payload.kind, payloadOf, Payload.sentAt, stamp, flags, member, alone, count, bitmap]
  | action f =>
    have wellFormed : f.width.isSome = decide (f.kind = .pulse) := by
      simpa [Payload.wellFormed] using wellFormed
    have control : byteAt (payloadBytes time (.action f)) 8 = controlByte f := rfl
    have length := length_payloadBytes_action time wellFormed
    simp only [Payload.kind, payloadOf, Payload.sentAt, control, length, if_true, actionFieldsAt_payloadBytes time wellFormed]
  | amend selector serial new =>
    have selectorRead : halfAt (payloadBytes time (.amend selector serial new)) 0 = selector := half_of_bytes _
    have serialRead : halfAt (payloadBytes time (.amend selector serial new)) 2 = serial := half_of_bytes _
    have period : timeAt (payloadBytes time (.amend selector serial new)) 4 = new.period := time_of_bytes _
    have count : byteAt (payloadBytes time (.amend selector serial new)) 8 = new.count := rfl
    simp only [Payload.kind, payloadOf, Payload.sentAt, selectorRead, serialRead, period, count]
  | cancel selector serial =>
    have selectorRead : halfAt (payloadBytes time (.cancel selector serial)) 0 = selector := half_of_bytes _
    have serialRead : halfAt (payloadBytes time (.cancel selector serial)) 2 = serial := half_of_bytes _
    simp only [Payload.kind, payloadOf, Payload.sentAt, selectorRead, serialRead]
  | event selector channel edge stamp sequence =>
    obtain ⟨channelRead, edgeRead⟩ := eventByte_read channel edge
    have selectorRead : halfAt (payloadBytes time (.event selector channel edge stamp sequence)) 0 = selector := half_of_bytes _
    have head : byteAt (payloadBytes time (.event selector channel edge stamp sequence)) 2 = inBits 0 channel ||| inBits 3 edge.code := rfl
    have stampRead : timeAt (payloadBytes time (.event selector channel edge stamp sequence)) 3 = stamp := time_of_bytes _
    have sequenceRead : halfAt (payloadBytes time (.event selector channel edge stamp sequence)) 7 = sequence := half_of_bytes _
    simp only [Payload.kind, payloadOf, Payload.sentAt, selectorRead, head, channelRead, edgeRead, stampRead, sequenceRead]
  | refuse origin serial reason =>
    have originRead : byteAt (payloadBytes time (.refuse origin serial reason)) 0 = inBits 0 origin := rfl
    have serialRead : halfAt (payloadBytes time (.refuse origin serial reason)) 1 = serial := half_of_bytes _
    have reasonRead : byteAt (payloadBytes time (.refuse origin serial reason)) 3 = reason := rfl
    simp only [Payload.kind, payloadOf, Payload.sentAt, originRead, station_read, serialRead, reasonRead]

end Sys2Proof.Machine
end

section
/-! PROOFS. A whole frame from its characters, with and without gaps between them, and from its bits (R1, R2, R7, R11). -/

namespace Sys2Proof.Machine

/-! ### The layout of a frame -/

/-- The characters of a frame: header, length, payload and check (R2, R5, R11). -/
theorem frameBytes_eq (number : Station) (time : Time) (p : Payload) : frameBytes number time p =
    (inBits 5 p.kind.code ||| inBits 0 number) :: .ofNat 8 (payloadBytes time p).length :: (payloadBytes time p
      ++ halfBytes (crc16 ((inBits 5 p.kind.code ||| inBits 0 number) :: .ofNat 8 (payloadBytes time p).length :: payloadBytes time p))) :=
  rfl

/-! ### Characters one after another -/

/-- Characters that a receiver takes one after another, the last of them judged as `result`. -/
def Assembles (chars : List Byte) (result : Received) : Prop :=
  judgeCharacters chars = result ∧ ∀ before b after, chars = before ++ b :: after → after ≠ [] →
    judgeCharacters (before ++ [b]) = .more (.awaiting (before ++ [b]))

/-- The bits of the characters of a frame, each after a gap. -/
def spacedBits (gap : Nat → Nat) (chars : List Byte) (first : Nat) : List Bool :=
  (chars.zipIdx first).flatMap fun (b, i) => List.replicate (gap i) true ++ characterBits b

theorem spacedBits_cons (gap : Nat → Nat) (b : Byte) (rest : List Byte) (first : Nat) : spacedBits gap (b :: rest) first
    = (List.replicate (gap first) true ++ characterBits b) ++ spacedBits gap rest (first + 1) := by
  simp [spacedBits]

/-- With no gaps the characters are sent back to back (R11). -/
theorem spacedBits_zero (chars : List Byte) (first : Nat) : spacedBits (fun _ => 0) chars first = bitsOfFrame chars := by
  induction chars generalizing first with
  | nil => rfl
  | cons b rest ih =>
    rw [spacedBits_cons, ih]
    rfl

/-- A receiver that has taken the first characters takes the others, with any gaps shorter than 11 bit times (R2, R7). -/
theorem takeSamples_spacedBits {chars : List Byte} {result : Received} (assembles : Assembles chars result) {gap : Nat → Nat}
    (short : ∀ i, gap i < 11) (taken rest : List Byte) (whole : taken ++ rest = chars) (left : rest ≠ []) (first : Nat) :
    takeSamples (.awaiting taken) (spacedBits gap rest first) = result.goOn [] := by
  obtain ⟨last, before⟩ := assembles
  induction rest generalizing taken first with
  | nil => exact absurd rfl left
  | cons b rest ih =>
    rw [spacedBits_cons, takeSamples_append, takeSamples_gap_character taken _ (short first) b]
    by_cases more : rest = []
    · subst more
      rw [whole, last]
      rfl
    · rw [before taken b rest whole.symm more, Received.goOn_more]
      exact ih (taken ++ [b]) (by simp [whole]) more (first + 1)

/-- Fewer samples than a character has leave it in assembly. -/
theorem takeSamples_part_of_character (taken : List Byte) (b : Byte) (n : Nat) (part : n < 10) :
    ∃ f, takeSamples (.awaiting taken) ((characterBits b).take n) = .more f := by
  cases n with
  | zero => exact ⟨_, rfl⟩
  | succ n =>
    have bits : (characterBits b).take (n + 1) = false :: (List.ofFn fun i : Fin 8 => b.getLsbD i).take n := by
      rw [characterBits_eq, List.cons_append, List.take_succ_cons, List.take_append_of_le_length (by simp; omega)]
    rw [bits]
    exact ⟨_, takeSamples_started taken 0 _ (by simp)⟩

/-- A receiver that has taken the first characters is in assembly at every bit but the last of the others (R7). -/
theorem takeSamples_part_of_bits {chars : List Byte} {result : Received} (assembles : Assembles chars result) (taken rest : List Byte)
    (whole : taken ++ rest = chars) (n : Nat) (part : n < (bitsOfFrame rest).length) :
    ∃ f, takeSamples (.awaiting taken) ((bitsOfFrame rest).take n) = .more f := by
  obtain ⟨_, before⟩ := assembles
  induction rest generalizing taken n with
  | nil => exact absurd part (Nat.not_lt_zero n)
  | cons b rest ih =>
    have bits : bitsOfFrame (b :: rest) = characterBits b ++ bitsOfFrame rest := rfl
    rw [bits, List.length_append, length_characterBits] at part
    rw [bits]
    by_cases within : n < 10
    · rw [List.take_append_of_le_length (by simp; omega)]
      exact takeSamples_part_of_character taken b n within
    · have more : rest ≠ [] := fun none => by
        rw [none] at part
        exact within part
      obtain ⟨m, rfl⟩ : ∃ m, n = (characterBits b).length + m := ⟨n - 10, by rw [length_characterBits]; omega⟩
      rw [List.take_length_add_append, takeSamples_awaiting, before taken b rest whole.symm more, Received.goOn_more]
      rw [length_characterBits] at part
      exact ih (taken ++ [b]) (by simp [whole]) m (by omega)

/-! ### A frame -/

/-- A frame as sent assembles into the frame that its receivers take (R7, R11). -/
theorem assembles_frameBytes (number : Station) (time : Time) {p : Payload} (wellFormed : p.wellFormed = true) :
    Assembles (frameBytes number time p) (.valid { sender := number, payload := p.sentAt time }) := by
  rw [frameBytes_eq]
  have kind := frameKindIn_header number p.kind
  have sender := stationIn_header number p.kind
  have good := length_payloadBytes_mem time p
  have read := payloadOf_payloadBytes time wellFormed
  generalize inBits 5 p.kind.code ||| inBits 0 number = header at kind sender
  generalize payloadBytes time p = body at good read
  have size : (BitVec.ofNat 8 body.length : Byte).toNat = body.length := by
    have : body.length ≤ 16 := by
      revert good
      cases p.kind <;> simp [FrameKind.lengths] <;> omega
    exact Nat.mod_eq_of_lt (by omega)
  rw [← size] at good
  generalize (BitVec.ofNat 8 body.length : Byte) = length at good size
  constructor
  · rw [halfBytes, judgeCharacters_last kind _ _ good size.symm, if_neg (not_not.2 (half_of_bytes _).symm), read, sender]
    rfl
  · intro before b after split left
    rcases before with _ | ⟨x, _ | ⟨y, before⟩⟩ <;> simp only [List.nil_append, List.cons_append, List.cons.injEq] at split
    · obtain ⟨rfl, _⟩ := split
      rw [List.nil_append, judgeCharacters_header, if_neg (by rw [kind]; nofun)]
    · obtain ⟨rfl, rfl, _⟩ := split
      exact judgeCharacters_more kind [] good (by simp)
    · obtain ⟨rfl, rfl, split⟩ := split
      have lengths := congrArg List.length split
      have := List.length_pos_of_ne_nil left
      simp only [List.length_append, halfBytes, List.length_cons, List.length_nil] at lengths
      exact judgeCharacters_more kind (before ++ [b]) good (by simp; omega)

/-- The characters of a frame by the code of its kind and its payload as laid out (R185). -/
theorem frameBytes_of_layout {time : Time} {p : Payload} {code : Nat} {body : List Byte} (number : Station)
    (kind : p.kind.code = code) (laidOut : payloadBytes time p = body) :
    let checked : List Byte := .ofNat 8 (number.val + 32 * code) :: .ofNat 8 body.length :: body
    frameBytes number time p
      = checked ++ [.ofNat 8 ((crc16 checked).toNat % 256), .ofNat 8 ((crc16 checked).toNat / 256)] := by
  rw [frameBytes_eq, header_eq, halfBytes_eq, kind, laidOut]
  rfl

/-- Settles O60: the layouts byte by byte, and the assembly of a frame from its characters. -/
theorem frameRoundTrip : Obligations.FrameRoundTrip := by
  unfold Obligations.FrameRoundTrip
  refine ⟨fun _ => rfl, fun _ => rfl, fun number time p => ?layout, fun number time p wellFormed => ?assembly⟩
  case layout =>
    dsimp only
    refine ⟨?bytes, by cases p <;> rfl⟩
    cases p with
    | beacon time' b =>
      exact frameBytes_of_layout number rfl (by rw [payloadBytes, timeBytes_eq, halfBytes_eq, beaconFlags_eq])
    | action a =>
      obtain ⟨selector, serial, due, line, kind, notify, width, rep⟩ := a
      refine frameBytes_of_layout number rfl ?_
      rw [payloadBytes, timeBytes_eq, halfBytes_eq, halfBytes_eq, controlByte_eq]
      cases width <;> cases rep <;> simp only [Option.map_none, Option.map_some, Option.getD_none, Option.getD_some, repeatBytes,
        halfBytes_eq, timeBytes_eq] <;> rfl
    | amend selector serial new =>
      exact frameBytes_of_layout number rfl (by rw [payloadBytes, repeatBytes, timeBytes_eq, halfBytes_eq, halfBytes_eq]; rfl)
    | cancel selector serial =>
      exact frameBytes_of_layout number rfl (by rw [payloadBytes, halfBytes_eq, halfBytes_eq])
    | event selector channel edge stamp sequence =>
      exact frameBytes_of_layout number rfl (by rw [payloadBytes, timeBytes_eq, halfBytes_eq, halfBytes_eq, eventByte_eq])
    | refuse origin serial reason => exact frameBytes_of_layout number rfl (by rw [payloadBytes, halfBytes_eq, originByte_eq]; rfl)
  case assembly =>
    have assembles := assembles_frameBytes number time wellFormed
    have sent : frameBytes number time p ≠ [] := nofun
    refine ⟨?_, fun n part => takeSamples_part_of_bits assembles [] _ rfl n part, fun gap short =>
      takeSamples_spacedBits assembles short [] _ rfl sent 0⟩
    rw [← spacedBits_zero _ 0]
    exact takeSamples_spacedBits assembles (fun _ => by omega) [] _ rfl sent 0

end Sys2Proof.Machine
end

section
/-! PROOFS. Insertions at the scheduler (R95–R108): what firing an action makes of a state, and what an insertion makes of it with the
refusal of its source, whichever source that is. -/

namespace Sys2Proof.Machine

/-! ### Times and fields -/

/-- A time before another one is not after it, and is another time. -/
theorem not_isAfter_of_isBefore {a b : Time} (before : isBefore a b = true) : isAfter a b = false ∧ a ≠ b := by
  have far : 2 ^ 31 ≤ (a - b).toNat := of_decide_eq_true before
  refine ⟨?_, fun same => ?_⟩
  · rw [isAfter, decide_eq_false (Nat.not_lt.2 far), Bool.and_false]
  · simp [same] at far

/-- A time is not after itself. -/
theorem isAfter_self (a : Time) : isAfter a a = false := by simp [isAfter]

theorem periodOk_iff (p : Time) : periodOk p = true ↔ 16 ≤ p.toNat ∧ p.toNat < 2 ^ 31 := by
  rw [periodOk, Bool.and_eq_true, decide_eq_true_iff, decide_eq_true_iff, Config.leastPeriod]

/-- The field check of an action (R97). -/
theorem ActionFields.fieldsOk_entry (a : ActionFields) (origin : Station) (source : Source) :
    fieldsOk (a.entry origin source) = true ↔
      (∀ r, a.rep = some r → 16 ≤ r.period.toNat ∧ r.period.toNat < 2 ^ 31) ∧ (a.kind = .pulse → a.width.getD 0 ≠ 0) := by
  have width : (decide (a.kind ≠ .pulse) || decide (a.width.getD 0 ≠ 0)) = true ↔ (a.kind = .pulse → a.width.getD 0 ≠ 0) := by
    rw [Bool.or_eq_true, decide_eq_true_iff, decide_eq_true_iff, imp_iff_not_or]
  unfold fieldsOk ActionFields.entry
  rw [Bool.and_eq_true]
  refine and_congr ?_ width
  cases h : a.rep with
  | none => simp
  | some r => simp [periodOk_iff]

/-! ### Firing -/

/-- A firing in the time of `u` reaches the line of the entry, and is told of when the entry notifies (R102, R105, R121). -/
def State.told (u v : State) (x : Entry) : State :=
  let line := (v.out.lines[x.line]).fired (u.defaultHigh x.line) u.now x.kind (x.width.getD 0) x.id x.due
  let v' := v.withOut { lines := v.out.lines.set x.line line }
  if x.notify then v'.report (.fired x.id x.line x.kind x.due (stepEntry x u.now).2.2) else v'

/-- How late a firing is at its insertion, if it is (R102). -/
def State.lateness (u : State) (e : Entry) : Option (BitVec 32) := if e.due = u.now then none else some (u.now - e.due)

/-- A late firing is told of as LATE, with the occurrences skipped (R102, R107). -/
def State.toldLate (u : State) (e : Entry) (lateness : Option (BitVec 32)) : State :=
  lateness.elim u fun l => u.report (.late e.id l (min (stepEntry e u.now).2.1 65535))

theorem State.toldLate_lateness (u : State) (e : Entry) : u.toldLate e (u.lateness e)
    = if e.due = u.now then u else u.report (.late e.id (u.now - e.due) (min (stepEntry e u.now).2.1 65535)) := by
  unfold toldLate lateness
  by_cases due : e.due = u.now
  · simp only [due, if_true, Option.elim_none]
  · simp only [due, if_false, Option.elim_some]

section

variable (u v : State) (e : Entry) (l : Option (BitVec 32))

@[simp] theorem State.clock_told : (u.told v e).clock = v.clock := by unfold told; dsimp only; split <;> rfl
@[simp] theorem State.cfg_told : (u.told v e).cfg = v.cfg := by unfold told; dsimp only; split <;> rfl
@[simp] theorem State.owed_told : (u.told v e).owed = v.owed := by unfold told; dsimp only; split <;> rfl
@[simp] theorem State.sched_told : (u.told v e).sched = v.sched := by unfold told; dsimp only; split <;> rfl

@[simp] theorem State.clock_toldLate : (u.toldLate e l).clock = u.clock := by cases l <;> rfl
@[simp] theorem State.cfg_toldLate : (u.toldLate e l).cfg = u.cfg := by cases l <;> rfl
@[simp] theorem State.owed_toldLate : (u.toldLate e l).owed = u.owed := by cases l <;> rfl
@[simp] theorem State.sched_toldLate : (u.toldLate e l).sched = u.sched := by cases l <;> rfl

/-- The telling of a firing leaves the scheduler's state as it is. -/
theorem State.told_withSched (x : Scheduler) : u.told (v.withSched x) e = (u.told v e).withSched x := by
  unfold told
  dsimp only
  split <;> rfl

end

/-- One firing, and what is left of its entry, in a state of the clock and the configuration of `u` (R102, R105). -/
theorem State.fireOnce_eq {u v : State} (clock : v.clock = u.clock) (cfg : v.cfg = u.cfg) (e : Entry) (l : Option (BitVec 32)) :
    v.fireOnce e l = (u.told (v.toldLate e l) e, (stepEntry e u.now).1) := by
  have now : v.now = u.now := congrArg (fun c : ClockUnit => c.cluster.getD 0) clock
  have high (w : State) (same : w.cfg = u.cfg) (i : Fin 8) : w.defaultHigh i = u.defaultHigh i := by
    simp only [State.defaultHigh, State.config, same]
  cases l with
  | none => simp only [fireOnce, applyFiring, told, toldLate, now, high v cfg, Option.elim_none]
  | some late =>
    have after : (v.report (.late e.id late (min (stepEntry e u.now).2.1 65535))).now = u.now := now
    simp only [fireOnce, applyFiring, told, toldLate, now, Config.count16Limit, after, Option.elim_some, high (v.report _) cfg]

/-- The insertion sequence of an entry has no part in its step (R106, R107). -/
theorem stepEntry_sequence (e : Entry) (n : BitVec 32) (now : Time) : stepEntry { e with sequence := n } now
    = ((stepEntry e now).1.map fun x => { x with sequence := n }, (stepEntry e now).2) := by
  unfold stepEntry
  dsimp only
  cases e.rep with
  | none => rfl
  | some held =>
    dsimp only
    by_cases last : (e.pendingRep.getD held).count = 1
    · simp only [last, if_true]
      rfl
    · simp only [last, if_false]
      obtain ⟨left, skipped⟩ := skipMissed (e.due + (e.pendingRep.getD held).period) now (e.pendingRep.getD held).period
        (if (e.pendingRep.getD held).count = 0 then 0 else (e.pendingRep.getD held).count - 1)
      cases left <;> rfl

section

variable {u : State} {e next : Entry} {l : Option (BitVec 32)}

/-- A firing that nothing is left of. -/
theorem State.fire_ended (ended : (stepEntry e u.now).1 = none) : u.fire e l = u.told (u.toldLate e l) e := by
  simp only [fire, fireOnce_eq (u := u) (v := u) rfl rfl, ended]

/-- What is left of a firing and is not due now is placed (R108). -/
theorem State.fire_placed (left : (stepEntry e u.now).1 = some next) (later : next.due ≠ u.now) :
    u.fire e l = (u.told (u.toldLate e l) e).placeEntry next := by
  have now : (u.told (u.toldLate e l) e).now = u.now := by simp [State.now]
  simp only [fire, fireOnce_eq (u := u) (v := u) rfl rfl, left, now, later, if_false]

/-- What is left of a firing and is due now fires in its turn, with no LATE (R108). -/
theorem State.fire_again (left : (stepEntry e u.now).1 = some next) (due : next.due = u.now) :
    u.fire e l = ((u.told (u.told (u.toldLate e l) e) next).withSched { u.sched with counter := u.sched.counter + 1 }).reinsert
      ((stepEntry next u.now).1.map fun x => { x with sequence := u.sched.counter + 1 }) := by
  have first : u.fireOnce e l = (u.told (u.toldLate e l) e, some next) := by rw [fireOnce_eq (u := u) rfl rfl, left]
  have dueThen : next.due = (u.told (u.toldLate e l) e).now := due.trans (by simp [State.now])
  have sched : (u.told (u.toldLate e l) e).sched = u.sched := by simp
  have clock : (u.told (u.toldLate e l) e).clock = u.clock := by simp
  have cfg : (u.told (u.toldLate e l) e).cfg = u.cfg := by simp
  generalize u.told (u.toldLate e l) e = v at first dueThen sched clock cfg
  have second : v.bumpSequence.fireOnce { next with sequence := v.bumpSequence.sched.counter } none
      = ((u.told v next).withSched { u.sched with counter := u.sched.counter + 1 },
        (stepEntry next u.now).1.map fun x => { x with sequence := u.sched.counter + 1 }) := by
    have fired : u.told v.bumpSequence { next with sequence := v.bumpSequence.sched.counter } = (u.told v next).bumpSequence := by
      rw [bumpSequence, bumpSequence, told_withSched, sched_told]
      unfold State.told
      rw [stepEntry_sequence next]
    rw [fireOnce_eq (u := u) (v := v.bumpSequence) clock cfg, stepEntry_sequence next, toldLate, Option.elim_none, fired, bumpSequence,
      sched_told, sched]
    refine Prod.ext rfl ?_
    rw [bumpSequence, ← sched]
    rfl
  calc u.fire e l
    _ = (v.bumpSequence.fireOnce { next with sequence := v.bumpSequence.sched.counter } none).1.reinsert
        (v.bumpSequence.fireOnce { next with sequence := v.bumpSequence.sched.counter } none).2 := by
      rw [fire, first]
      exact if_pos dueThen
    _ = _ := by rw [second]

end

/-- A placement in a state that has the scheduler and the order of `u` (R95). -/
theorem State.placeEntry_as {u v : State} {counter : BitVec 32} (owed : v.owed = u.owed) (clock : v.clock = u.clock)
    (sched : v.sched = { u.sched with counter := counter }) (e : Entry) : v.placeEntry e = v.withSched
      { queue := placeIn u.orderBase { e with sequence := counter + 1 } u.sched.queue, counter := counter + 1 } := by
  have base : v.orderBase = u.orderBase := by simp only [orderBase, owed, State.now, clock]
  rw [placeEntry_eq, sched, base]

/-- What an entry that fires at its insertion makes of the state (R100, R102, R105–R108). -/
theorem State.fire_firesRepeating (u : State) (e : Entry) : u.FiresRepeating (u.fire e (u.lateness e)) e := by
  have first : (if e.due = u.now then u else u.report (.late e.id (u.now - e.due) (min (stepEntry e u.now).2.1 65535)))
      = u.toldLate e (u.lateness e) := (u.toldLate_lateness e).symm
  unfold FiresRepeating
  dsimp only
  rw [first]
  refine ⟨fire_ended, fun next left => ⟨fun later => ?placed, fun due => ⟨fun ended => ?once, fun last kept => ?twice⟩⟩⟩
  case placed =>
    exact (fire_placed left later).trans (placeEntry_as (by simp) (by simp) (by simp) next)
  case once =>
    rw [fire_again left due, ended]
    rfl
  case twice =>
    rw [fire_again left due, kept]
    refine (placeEntry_as (u := u) (counter := u.sched.counter + 1) (by simp [withSched]) (by simp [withSched]) rfl _).trans ?_
    rw [BitVec.add_assoc]
    rfl

/-! ### Insertions -/

/-- An insertion with what its source makes of a refusal (R103). -/
def State.insertOr (u : State) (e : Entry) (refused : State → Byte → State) : State :=
  (u.insert e).2.reason.elim (u.insert e).1 (refused (u.insert e).1)

/-- An entry that is due now, or before now where late actions fire, fires at its insertion (R100, R102). -/
theorem State.insertByDue_fires {u : State} {e : Entry}
    (fires : e.due = u.now ∨ (isBefore e.due u.now = true ∧ u.config.latePolicy = .fire)) :
    u.insertByDue e = (u.fire e (u.lateness e), .inserted) := by
  rcases fires with due | ⟨before, policy⟩
  · simp [insertByDue, lateness, due, isAfter_self]
  · obtain ⟨notAfter, other⟩ := not_isAfter_of_isBefore before
    simp [insertByDue, lateness, notAfter, other, policy]

theorem State.insertByDue_placed {u : State} {e : Entry} (after : isAfter e.due u.now = true) :
    u.insertByDue e = (u.placeEntry e, .inserted) := if_pos after

/-- An entry due before now is dropped where late actions drop (R101). -/
theorem State.insertByDue_dropped {u : State} {e : Entry} (before : isBefore e.due u.now = true) (policy : u.config.latePolicy = .drop) :
    u.insertByDue e = (u.report (.dropped e.id (u.now - e.due)), .late) := by
  obtain ⟨notAfter, other⟩ := not_isAfter_of_isBefore before
  simp [insertByDue, notAfter, other, policy]

/-- The state with no entry of an id in the action queue (R98). -/
def State.without (u : State) (id : ActionId) : State :=
  u.withSched { u.sched with queue := u.sched.queue.filter (fun x => x.id ≠ id) }

theorem State.without_of_absent {u : State} {id : ActionId} (absent : ∀ x ∈ u.sched.queue, x.id ≠ id) : u.without id = u := by
  have all : u.sched.queue.filter (fun x => x.id ≠ id) = u.sched.queue :=
    List.filter_eq_self.2 fun x hx => decide_eq_true (absent x hx)
  rw [without, all]
  rfl

/-- An insertion that passes the checks of its fields and of the room decides by the due time, a replaced entry removed (R98). -/
theorem State.insert_of_room {u : State} {e : Entry} (member : u.member.state = .member) (enabled : u.enabled e.line = true)
    (good : fieldsOk e = true) (room : (∃ x ∈ u.sched.queue, x.id = e.id) ∨ u.sched.queue.length < 32) :
    u.insert e = (u.without e.id).insertByDue e := by
  rcases u.insert_cases e with ⟨other, _⟩ | ⟨_, disabled, _⟩ | ⟨_, _, bad, _⟩ | ⟨_, _, _, _, replaces⟩ | ⟨_, _, _, absent, full, _⟩
    | ⟨_, _, _, absent, _, takes⟩
  · exact absurd member other
  · exact absurd enabled (by simp [disabled])
  · exact absurd good (by simp [bad])
  · exact replaces
  · rcases room with ⟨x, hx, same⟩ | few
    · exact absurd same (absent x hx)
    · exact absurd few (by omega)
  · rw [without_of_absent absent]
    exact takes

section

variable {u : State} {e : Entry} (refused : State → Byte → State)

theorem State.insertOr_badLine (member : u.member.state = .member) (disabled : u.enabled e.line = false) :
    u.insertOr e refused = refused u 2 := by
  have result : u.insert e = (u, .badLine) := by simp [insert, member, disabled]
  rw [insertOr, result]
  rfl

theorem State.insertOr_badField (member : u.member.state = .member) (enabled : u.enabled e.line = true) (bad : fieldsOk e = false) :
    u.insertOr e refused = refused u 3 := by
  have result : u.insert e = (u, .badField) := by simp [insert, member, enabled, bad]
  rw [insertOr, result]
  rfl

theorem State.insertOr_queueFull (member : u.member.state = .member) (enabled : u.enabled e.line = true) (good : fieldsOk e = true)
    (full : ¬ ((∃ x ∈ u.sched.queue, x.id = e.id) ∨ u.sched.queue.length < 32)) : u.insertOr e refused = refused u 1 := by
  obtain ⟨absent, many⟩ := not_or.1 full
  have none : u.sched.queue.any (fun x => x.id = e.id) = false := by simpa using absent
  have result : u.insert e = (u, .queueFull) := by
    simp only [insert, member, enabled, good, none, Config.actionPlaces, Nat.not_lt.1 many, ne_eq, not_true_eq_false, Bool.not_true,
      Bool.false_eq_true, if_false, if_true]
  rw [insertOr, result]
  rfl

end

/-- What an insertion in MEMBER makes of the state, with what its source makes of a refusal (R96–R103). -/
theorem State.insertOr_inserts (u : State) (a : ActionFields) (origin : Station) (source : Source) (refused : State → Byte → State)
    (member : u.member.state = .member) :
    u.Inserts (u.insertOr (a.entry origin source) refused) a origin source refused := by
  have fields := a.fieldsOk_entry origin source
  refine ⟨fun disabled => insertOr_badLine refused member disabled,
    fun enabled bad => insertOr_badField refused member enabled (Bool.eq_false_iff.2 (bad ∘ fields.1)),
    fun enabled good full => insertOr_queueFull refused member enabled (fields.2 good) full, fun enabled good room => ?_⟩
  have checked := insert_of_room (e := a.entry origin source) member enabled (fields.2 good) room
  generalize he : a.entry origin source = e at checked
  have due : e.due = a.due := by rw [← he]; rfl
  have fires : a.due = u.now ∨ (isBefore a.due u.now = true ∧ u.config.latePolicy = .fire) →
      u.insertOr e refused = (u.without e.id).fire e ((u.without e.id).lateness e) := fun now => by
    rw [insertOr, checked, insertByDue_fires (u := u.without e.id) (due ▸ now)]
    rfl
  refine ⟨fun after => ?placed, fun before policy => ?dropped, fun once now => ?once, fun repeats now => ?repeating⟩
  case placed =>
    rw [insertOr, checked, insertByDue_placed (u := u.without e.id) (due ▸ after), ← he]
    rfl
  case dropped =>
    rw [insertOr, checked, insertByDue_dropped (u := u.without e.id) (due ▸ before) policy, ← he]
    rfl
  case once =>
    have ended : stepEntry e u.now = (none, 0, none) := by rw [stepEntry, ← he, ActionFields.entry, once]
    have late : min (stepEntry e (u.without e.id).now).2.1 65535 = 0 := congrArg (fun r => min r.2.1 65535) ended
    have told : u.insertOr e refused = u.told
        (if a.due = u.now then u.without e.id else (u.without e.id).report (.late e.id (u.now - e.due) 0)) e := by
      rw [fires now, fire_ended (u := u.without e.id) (congrArg Prod.fst ended), toldLate_lateness, late, due]
      rfl
    dsimp only
    by_cases dueNow : a.due = u.now
    · rw [told, if_pos dueNow, if_pos dueNow, State.told, ended, ← he]
      rfl
    · rw [told, if_neg dueNow, if_neg dueNow, State.told, ended, ← he]
      rfl
  case repeating =>
    rw [fires now, ← he]
    exact fire_firesRepeating _ _

end Sys2Proof.Machine
end

section
/-! PROOFS. Amendments and cancellations at the scheduler (R109–R112), self-delivery (R143) and the success of an own frame (R31). -/

namespace Sys2Proof.Machine

/-! ### Amendments and cancellations -/

section

variable {u : State} {id : ActionId} (new : Repeat)

/-- An amendment with what its source makes of a refusal (R110). -/
def State.amendOr (u : State) (id : ActionId) (new : Repeat) (refused : State → Byte → State) : State :=
  (u.amendEntry id new).2.reason.elim (u.amendEntry id new).1 (refused (u.amendEntry id new).1)

/-- An amendment of an action that is not held changes nothing (R110). -/
theorem State.amendOr_absent (refused : State → Byte → State) (member : u.member.state = .member)
    (absent : ∀ x ∈ u.sched.queue, x.id ≠ id) : u.amendOr id new refused = u := by
  have none : u.sched.queue.find? (fun x => x.id = id) = none := List.find?_eq_none.2 fun x hx => by simpa using absent x hx
  have result : u.amendEntry id new = (u, .notFound) := by simp [amendEntry, member, none]
  rw [amendOr, result]
  rfl

section

variable (refused : State → Byte → State) {first rest : List Entry} {e : Entry} (member : u.member.state = .member)
  (queue : u.sched.queue = first ++ e :: rest) (same : e.id = id) (others : ∀ x ∈ first ++ rest, x.id ≠ id)

include queue same others

theorem State.find_entry : u.sched.queue.find? (fun x => x.id = id) = some e := by
  rw [List.find?_eq_some_iff_append]
  exact ⟨decide_eq_true same, first, rest, queue, fun x hx => by simp [others x (List.mem_append_left _ hx)]⟩

/-- A change of the entry of an id changes no other entry. -/
theorem State.map_entry (f : Entry → Entry) :
    u.sched.queue.map (fun x => if x.id = id then f x else x) = first ++ f e :: rest := by
  have stays : ∀ l : List Entry, (∀ x ∈ l, x ∈ first ++ rest) → l.map (fun x => if x.id = id then f x else x) = l := fun l h =>
    (List.map_congr_left fun x hx => if_neg (others x (h x hx))).trans (List.map_id l)
  rw [queue, List.map_append, List.map_cons, if_pos same, stays first fun x => List.mem_append_left _,
    stays rest fun x => List.mem_append_right _]

include member

/-- An action that does not repeat is not amended (R109). -/
theorem State.amendOr_notRepeating (once : e.rep = none) : u.amendOr id new refused = refused u 5 := by
  have result : u.amendEntry id new = (u, .notRepeating) := by
    simp [amendEntry, member, find_entry queue same others, once]
  rw [amendOr, result]
  rfl

/-- A period out of range is refused (R109). -/
theorem State.amendOr_badField (repeats : e.rep.isSome = true) (bad : ¬ (16 ≤ new.period.toNat ∧ new.period.toNat < 2 ^ 31)) :
    u.amendOr id new refused = refused u 3 := by
  have outside : periodOk new.period = false := Bool.eq_false_iff.2 (bad ∘ (periodOk_iff _).1)
  have result : u.amendEntry id new = (u, .badField) := by
    simp [amendEntry, member, find_entry queue same others, Option.ne_none_iff_isSome.2 repeats, outside]
  rw [amendOr, result]
  rfl

/-- An amendment sets the pending values of its entry (R109). -/
theorem State.amendOr_applied (repeats : e.rep.isSome = true) (good : 16 ≤ new.period.toNat ∧ new.period.toNat < 2 ^ 31) :
    u.amendOr id new refused = u.withSched { u.sched with queue := first ++ { e with pendingRep := some new } :: rest } := by
  have result : u.amendEntry id new
      = (u.withSched { u.sched with queue := first ++ { e with pendingRep := some new } :: rest }, .applied) := by
    simp [amendEntry, member, find_entry queue same others, Option.ne_none_iff_isSome.2 repeats, (periodOk_iff _).2 good,
      map_entry queue same others fun x => { x with pendingRep := some new }]
  rw [amendOr, result]
  rfl

end

/-- A cancellation leaves no entry of its id (R112). -/
theorem State.cancelEntry_fst (member : u.member.state = .member) : (u.cancelEntry id).1 = u.without id := by
  by_cases held : ∃ x ∈ u.sched.queue, x.id = id
  · have found : u.sched.queue.any (fun x => x.id = id) = true := by simpa using held
    simp only [cancelEntry, member, found, ne_eq, not_true_eq_false, if_false, if_true]
    rfl
  · have absent : u.sched.queue.any (fun x => x.id = id) = false := by simpa using held
    simp only [cancelEntry, member, absent, ne_eq, not_true_eq_false, Bool.false_eq_true, if_false]
    exact (without_of_absent fun x hx same => held ⟨x, hx, same⟩).symm

end

/-! ### Self-delivery -/

section

variable {u : State}

/-- The report of a refusal of this station's own action (R143). -/
def State.refusedHere (u : State) (serial : Half) (v : State) (reason : Byte) : State :=
  v.report (.refused { origin := u.number, serial := serial } u.number reason)

theorem State.selfDeliver_of_not_member (p : Payload) (other : u.member.state ≠ .member) : u.selfDeliver p = u := by
  simp [selfDeliver, other]

theorem State.selfDeliver_of_not_admitted (p : Payload) (passedOver : u.admits p = false) : u.selfDeliver p = u := by
  simp [selfDeliver, passedOver]

/-- Self-delivery of a frame that passes the windows is its claim, a refusal reported (R143). -/
theorem State.selfDeliver_of_admitted {p : Payload} (member : u.member.state = .member) (passes : u.admits p = true) :
    u.selfDeliver p = (u.applyClaim u.number .selfDelivery p).2.elim (u.applyClaim u.number .selfDelivery p).1
      fun (id, reason) => (u.applyClaim u.number .selfDelivery p).1.report (.refused id u.number reason) := by
  simp only [selfDeliver, member, passes, decide_true, Bool.and_self, if_true]
  rcases u.applyClaim u.number .selfDelivery p with ⟨v, none | ⟨id, reason⟩⟩ <;> rfl

theorem State.selfDeliver_action {a : ActionFields} (member : u.member.state = .member) (passes : u.passes a.selector = true) :
    u.selfDeliver (.action a) = u.insertOr (a.entry u.number .selfDelivery) (u.refusedHere a.serial) := by
  rw [selfDeliver_of_admitted (p := .action a) member passes, applyClaim, insertOr]
  rcases u.insert (a.entry u.number .selfDelivery) with ⟨v, result⟩
  cases result <;> rfl

theorem State.selfDeliver_amend {selector serial : Half} {new : Repeat} (member : u.member.state = .member)
    (passes : u.passes selector = true) :
    u.selfDeliver (.amend selector serial new) = u.amendOr { origin := u.number, serial := serial } new (u.refusedHere serial) := by
  rw [selfDeliver_of_admitted (p := .amend selector serial new) member passes, applyClaim, amendOr]
  rcases u.amendEntry { origin := u.number, serial := serial } new with ⟨v, result⟩
  cases result <;> rfl

theorem State.selfDeliver_cancel {selector serial : Half} (member : u.member.state = .member) (passes : u.passes selector = true) :
    u.selfDeliver (.cancel selector serial) = u.without { origin := u.number, serial := serial } := by
  rw [selfDeliver_of_admitted (p := .cancel selector serial) member passes]
  exact cancelEntry_fst member

/-- Self-delivery has no part in the line unit and the contention unit. -/
theorem State.selfDeliver_frame (u : State) (p : Payload) : (u.selfDeliver p).line = u.line ∧ (u.selfDeliver p).cont = u.cont := by
  have line := u.line_applyClaim u.number .selfDelivery p
  have cont := u.cont_applyClaim u.number .selfDelivery p
  by_cases member : u.member.state = .member
  · by_cases passes : u.admits p = true
    · rw [selfDeliver_of_admitted member passes]
      cases (u.applyClaim u.number .selfDelivery p).2 <;> exact ⟨line, cont⟩
    · rw [selfDeliver_of_not_admitted p (by simpa using passes)]
      exact ⟨rfl, rfl⟩
  · rw [selfDeliver_of_not_member p member]
    exact ⟨rfl, rfl⟩

end

/-! ### The success of an own frame -/

/-- A success removes the record in transmission, and delivers it to this station if it is flagged and not void (R31, R34). -/
theorem State.transmissionSucceeded_eq {s : State} {before after : List TxRecord} {r : TxRecord}
    (queue : s.cont.queue = before ++ r :: after) (sent : r.inTransmission = true)
    (others : ∀ x ∈ before ++ after, x.inTransmission = false) :
    s.transmissionSucceeded = if r.isVoid || !r.selfDelivery then s.withCont { s.cont with queue := before ++ after }
      else (s.withCont { s.cont with queue := before ++ after }).selfDeliver r.payload := by
  rw [transmissionSucceeded, find_transmitted queue sent others]
  dsimp only
  rw [removeTransmitted_eq queue sent others]

/-- Settles O32: the record leaves the queue by `State.transmissionSucceeded_eq`, and what it is delivered as is an insertion by
`State.insertOr_inserts`, an amendment by its outcomes, or a cancellation. -/
theorem transmissionSuccess : Obligations.TransmissionSuccess := by
  unfold Obligations.TransmissionSuccess
  intro s before after r sends queue sent others
  obtain ⟨u, hu⟩ : ∃ u, (s.endSend (State.receiverAfterSend s.line.afterSend) 0).withCont { s.cont with queue := before ++ after } = u :=
    ⟨_, rfl⟩
  have took : exec .transmissionSuccess s = .next (if r.isVoid || !r.selfDelivery then u else u.selfDeliver r.payload) := by
    rw [exec_transmissionSuccess_send sends, State.transmissionSucceeded_eq (s := s.endSend _ 0) queue sent others, ← hu]
    rfl
  have delivered := u.selfDeliver_frame r.payload
  generalize ht : (if r.isVoid || !r.selfDelivery then u else u.selfDeliver r.payload) = t at took
  obtain ⟨line, cont⟩ : t.line = u.line ∧ t.cont = u.cont := by
    rw [← ht]
    split
    · exact ⟨rfl, rfl⟩
    · exact delivered
  have base : (s.withLine t.line).withCont t.cont = u := by rw [line, cont, ← hu]; rfl
  have number : u.number = s.number := by rw [← hu]; rfl
  have state : u.member.state = s.member.state := by rw [← hu]; rfl
  have sched : u.sched = s.sched := by rw [← hu]; rfl
  have passes : u.passes = s.passes := by rw [← hu]; rfl
  refine ⟨t, took, ?line, by rw [cont, ← hu]; rfl, ?_⟩
  case line =>
    rw [line, ← hu]
    cases h : s.line.afterSend <;> simp [State.endSend, State.receiverAfterSend]
  dsimp only
  rw [base]
  refine ⟨fun nothing => ?undelivered, fun notVoid flagged member => ?_⟩
  case undelivered =>
    rw [← ht]
    rcases nothing with void | unflagged | notMember
    · rw [void, Bool.true_or, if_pos rfl]
    · rw [unflagged, Bool.not_false, Bool.or_true, if_pos rfl]
    · rw [u.selfDeliver_of_not_member r.payload (state ▸ notMember), ite_self]
  have member' : u.member.state = .member := state.trans member
  have result : t = u.selfDeliver r.payload := by rw [← ht, notVoid, flagged]; rfl
  have passedOver (p : Payload) (payload : r.payload = p) (out : u.admits p = false) : t = u := by
    rw [result, payload, u.selfDeliver_of_not_admitted p out]
  rw [← number, ← sched, ← passes]
  refine ⟨fun a action => ⟨passedOver _ action, fun admitted => ?insert⟩,
    fun selector serial new amend => ⟨fun without => ?notAmended, fun first e rest admitted held same others => ?amended⟩,
    fun selector serial cancel => ⟨passedOver _ cancel, fun admitted => ?cancelled⟩⟩
  case insert =>
    rw [result, action, State.selfDeliver_action member' admitted]
    exact u.insertOr_inserts a u.number .selfDelivery (u.refusedHere a.serial) member'
  case notAmended =>
    by_cases admitted : u.passes selector = true
    · rw [result, amend, State.selfDeliver_amend member' admitted]
      exact State.amendOr_absent new _ member' (without.resolve_left (by simp [admitted]))
    · exact passedOver _ amend (Bool.eq_false_iff.2 admitted)
  case amended =>
    rw [result, amend, State.selfDeliver_amend member' admitted]
    exact ⟨State.amendOr_notRepeating new (u.refusedHere serial) member' held same others,
      State.amendOr_badField new (u.refusedHere serial) member' held same others,
      fun repeats least most => State.amendOr_applied new _ member' held same others repeats ⟨least, most⟩⟩
  case cancelled =>
    rw [result, cancel, State.selfDeliver_cancel member' admitted]
    rfl

end Sys2Proof.Machine
end

section
/-! PROOFS. What a step may lead to: a property that every row keeps is kept by every step. -/

namespace Sys2Proof.Machine

/-- Whatever state an outcome leads to, `P` holds of it. -/
def LeadsTo (P : State → Prop) (r : Result) : Prop := ∀ t, r = .next t → P t

theorem LeadsTo.next {P : State → Prop} {s : State} (h : P s) : LeadsTo P (.next s) := fun _ same => Host.Outcome.next.inj same ▸ h

/-- A step runs the front command on the rest of the queue, so that what every row keeps, and the queue of commands has no part in, every
step keeps. -/
theorem step_keeps {P : State → Prop} (pending : ∀ s q, P s → P (s.withPending q)) (row : ∀ i s, P s → LeadsTo P (exec i s))
    (s t : State) (holds : P s) (took : step s = .next t) : P t := by
  unfold step at took
  split at took
  · exact Host.Outcome.next.inj took ▸ holds
  · exact row _ _ (pending s _ holds) t took

/-- The row of a command executes nothing, or a command (R172). -/
theorem exec_row_cases (s : State) (c : Command) : exec c.row s = .next s ∨ ∃ d, exec c.row s = .next (s.run d) := by
  by_cases current : ∃ d, s.ready = some d ∧ d.row = c.row
  · obtain ⟨d, ready, row⟩ := current
    obtain ⟨n, work, least, most⟩ := (State.ready_eq_some_iff d).1 ready
    exact .inr ⟨d, row ▸ s.exec_row d n work least most⟩
  · exact .inl (exec_row_unmet c fun d ready row => current ⟨d, ready, row⟩)

end Sys2Proof.Machine
end

section
/-! PROOFS. The bounds of a transmit queue (R18, R29, R33) under every change of it, and what the requests of the blocks change of the
contention unit. -/

namespace Sys2Proof.Machine

/-! ### The changes of a transmit queue -/

/-- The marks of a record: 0–7 failed attempts (R29), and void only in transmission (R33). -/
def TxRecord.MarksOk (r : TxRecord) : Prop := r.attempts ≤ 7 ∧ (r.isVoid = true → r.inTransmission = true)

theorem TxRecord.marksOk_fresh (p : Payload) (selfDelivery : Bool) (entry : Option (Fin 16)) : (fresh p selfDelivery entry).MarksOk :=
  ⟨Nat.zero_le 7, nofun⟩

/-- The bounds of a transmit queue, those of `State.TransmitOk` (R18, R29, R33). -/
structure BoundedQueue (queue : List TxRecord) : Prop where
  places : queue.length ≤ 8
  oneBeacon : queue.countP (fun r => r.kind = .beacon) ≤ 1
  oneSent : queue.countP (·.inTransmission) ≤ 1
  marks : ∀ r ∈ queue, r.MarksOk

theorem State.transmitOk_iff (s : State) : s.TransmitOk ↔ BoundedQueue s.cont.queue := by
  unfold TransmitOk
  rw [← List.countP_eq_length_filter, ← List.countP_eq_length_filter]
  exact ⟨fun ⟨places, beacon, sent, marks⟩ => ⟨places, beacon, sent, marks⟩,
    fun ok => ⟨ok.places, ok.oneBeacon, ok.oneSent, ok.marks⟩⟩

namespace BoundedQueue

variable {queue before after : List TxRecord} {r : TxRecord}

theorem nil : BoundedQueue [] := ⟨Nat.zero_le 8, Nat.zero_le 1, Nat.zero_le 1, nofun⟩

/-- Records that leave the queue break no bound. -/
theorem sublist {fewer : List TxRecord} (ok : BoundedQueue queue) (leaves : fewer.Sublist queue) : BoundedQueue fewer where
  places := leaves.length_le.trans ok.places
  oneBeacon := leaves.countP_le.trans ok.oneBeacon
  oneSent := leaves.countP_le.trans ok.oneSent
  marks x hx := ok.marks x (leaves.subset hx)

/-- A change of records that makes no BEACON and begins no transmission. -/
theorem map {f : TxRecord → TxRecord} (ok : BoundedQueue queue) (beacon : ∀ x ∈ queue, (f x).kind = .beacon → x.kind = .beacon)
    (sent : ∀ x ∈ queue, (f x).inTransmission = true → x.inTransmission = true) (marks : ∀ x ∈ queue, (f x).MarksOk) :
    BoundedQueue (queue.map f) where
  places := by rw [List.length_map]; exact ok.places
  oneBeacon := by
    rw [List.countP_map]
    exact (List.countP_mono_left fun x hx h => decide_eq_true (beacon x hx (of_decide_eq_true h))).trans ok.oneBeacon
  oneSent := by
    rw [List.countP_map]
    exact (List.countP_mono_left sent).trans ok.oneSent
  marks := by simpa using marks

/-- A new record with room for it, which is no second BEACON and not in transmission (R18). -/
theorem append (ok : BoundedQueue queue) (room : queue.length < 8) (beacon : r.kind = .beacon → ∀ x ∈ queue, x.kind ≠ .beacon)
    (unsent : r.inTransmission = false) (marks : r.MarksOk) : BoundedQueue (queue ++ [r]) where
  places := by simpa using room
  oneBeacon := by
    by_cases own : r.kind = .beacon
    · have none : queue.countP (fun x => x.kind = .beacon) = 0 := by simpa using beacon own
      rw [List.countP_append, none, Nat.zero_add]
      exact List.countP_le_length
    · simpa [List.countP_append, own] using ok.oneBeacon
  oneSent := by simpa [List.countP_append, unsent] using ok.oneSent
  marks := by
    simp only [List.mem_append, List.mem_singleton]
    rintro x (hx | rfl)
    · exact ok.marks x hx
    · exact marks

/-- A change of one record, which goes into transmission only when no other is in it. -/
theorem replace {r' : TxRecord} (ok : BoundedQueue (before ++ r :: after)) (kind : r'.kind = r.kind)
    (sent : r'.inTransmission = true → ∀ x ∈ before ++ after, x.inTransmission = false) (marks : r'.MarksOk) :
    BoundedQueue (before ++ r' :: after) where
  places := by simpa using ok.places
  oneBeacon := by
    have := ok.oneBeacon
    simpa only [List.countP_append, List.countP_cons, kind] using this
  oneSent := by
    have rest := (ok.sublist ((List.sublist_cons_self r after).append_left before)).oneSent
    rw [List.countP_append] at rest
    rw [List.countP_append, List.countP_cons]
    by_cases on : r'.inTransmission = true
    · have none : (before ++ after).countP (·.inTransmission) = 0 :=
        List.countP_eq_zero.2 fun x hx => by simp [sent on x hx]
      rw [List.countP_append] at none
      simp only [on, if_true]
      omega
    · simp only [on, Bool.false_eq_true, if_false]
      omega
  marks := by
    intro x hx
    rcases List.mem_append.1 hx with h | h
    · exact ok.marks x (List.mem_append_left _ h)
    · rcases List.mem_cons.1 h with rfl | h
      · exact marks
      · exact ok.marks x (List.mem_append_right _ (List.mem_cons_of_mem r h))

/-- A change of the record at a place. -/
theorem set {r' : TxRecord} {place : Nat} (ok : BoundedQueue queue) (held : queue[place]? = some r) (kind : r'.kind = r.kind)
    (unsent : ∀ x ∈ queue, x.inTransmission = false) (marks : r'.MarksOk) : BoundedQueue (queue.set place r') := by
  obtain ⟨here, rfl⟩ := List.getElem?_eq_some_iff.1 held
  have parts : queue = queue.take place ++ queue[place] :: queue.drop (place + 1) := by
    rw [← List.drop_eq_getElem_cons here, List.take_append_drop]
  rw [parts] at ok
  rw [List.set_eq_take_append_cons_drop, if_pos here]
  refine ok.replace kind (fun _ x hx => unsent x ?_) marks
  rcases List.mem_append.1 hx with h | h
  · exact List.mem_of_mem_take h
  · exact List.mem_of_mem_drop h

/-- Nothing is in transmission, or one record that all others stand around. -/
theorem sent_cases (ok : BoundedQueue queue) : (∀ x ∈ queue, x.inTransmission = false) ∨
    ∃ before r after, queue = before ++ r :: after ∧ r.inTransmission = true ∧ ∀ x ∈ before ++ after, x.inTransmission = false := by
  by_cases some : ∃ r ∈ queue, r.inTransmission = true
  · obtain ⟨r, mem, sent⟩ := some
    obtain ⟨before, after, rfl⟩ := List.append_of_mem mem
    have one := ok.oneSent
    have others : (before ++ after).countP (·.inTransmission) = 0 := by
      rw [List.countP_append, List.countP_cons, if_pos sent] at one
      rw [List.countP_append]
      omega
    exact .inr ⟨before, r, after, rfl, sent, fun x hx => Bool.eq_false_iff.2 (List.countP_eq_zero.1 others x hx)⟩
  · exact .inl (by simpa using some)

/-- A purge leaves only what is in transmission, void (R33). -/
theorem purged {c : Contention} (ok : BoundedQueue c.queue) : BoundedQueue c.purged.queue :=
  (ok.sublist List.filter_sublist).map (fun _ _ => id) (fun _ _ => id) fun x hx =>
    ⟨(ok.marks x (List.mem_of_mem_filter hx)).1, fun _ => (List.mem_filter.1 hx).2⟩

/-- A BEACON takes the place of the one that waits, or a free one, or none (R21). -/
theorem beaconQueue (ok : BoundedQueue queue) (body : BeaconBody) : BoundedQueue (State.beaconQueue queue body) := by
  unfold State.beaconQueue
  dsimp only
  split
  · exact ok
  split
  · refine ok.map (fun x _ => ?_) (fun x _ => ?_) fun x hx => ?_
    all_goals split
    · exact fun _ => ‹_›
    · exact id
    · exact nofun
    · exact id
    · exact TxRecord.marksOk_fresh _ _ _
    · exact ok.marks x hx
  · rename_i none
    split
    · exact ok.append ‹_› (fun _ => by simpa using none) rfl (TxRecord.marksOk_fresh _ _ _)
    · exact ok

end BoundedQueue

/-! ### The requests -/

section

variable (s : State)

theorem State.cont_refuse (id : ActionId) (reason : Byte) :
    (s.refuse id reason).cont = (s.enqueue (.fresh (.refuse id.origin id.serial reason) false none)).1.cont := by
  unfold refuse
  split <;> (rename_i h; rw [h])
  exact cont_report _ _

theorem State.cont_publish (earlier : Nat) (n : Fin 16) (x : ReflexEntry) (stamp : Time) : (s.publish earlier n x stamp).cont
    = (s.enqueue (.fresh (.event x.selector x.input x.edge stamp s.cap.eventCounter) false (some n))).1.cont := by
  unfold publish
  split <;> (rename_i h; rw [h])
  · rfl
  · exact cont_reportNotSent _ _ _ _

theorem State.cont_reflexPost (earlier : Nat) (n : Fin 16) (x : ReflexEntry) (stamp : Time) : (s.reflexPost earlier n x stamp).cont
    = (s.enqueue (.fresh (.action (s.reflexAction x stamp)) true (some n))).1.cont := by
  unfold reflexPost
  split <;> (rename_i h; rw [h])
  · exact cont_takeSerial _
  · exact cont_reportNotSent _ _ _ _

theorem State.cont_sendCommand (c : Command) (p : Payload) : (s.sendCommand c p).cont = (s.enqueue (.fresh p true none)).1.cont := rfl

theorem State.cont_requestBeacon (body : BeaconBody) : (s.requestBeacon body).cont
    = if takesKind .beacon s.member.state then { s.cont with queue := beaconQueue s.cont.queue body } else s.cont := by
  unfold requestBeacon
  split <;> rfl

/-- The BEACON that an evaluation builds of the table it leaves (R65). -/
def State.evaluatedBeacon : BeaconBody := s.ownBeacon s.evaluatedPeers (s.verdict = .join)

/-- The contention unit after an evaluation is what the request for the own BEACON makes of it (R65). -/
theorem State.cont_evaluation (turn : LineTurn) : (s.evaluation turn).cont = (s.requestBeacon s.evaluatedBeacon).cont := by
  obtain ⟨_, _, peers, _⟩ := s.verdict_congr (t := (s.beginBoundary turn).lineErrors .first turn s.line.errors s.now)
    (by simp) (by simp) (by simp)
  simp [evaluation, cont_requestBeacon, evaluatedBeacon, ownBeacon, peers]

end

end Sys2Proof.Machine
end

section
/-! PROOFS. The bounds of the transmit queue under the requests, the departures, the boundary and the reflexes (R19–R21, R33). -/

namespace Sys2Proof.Machine

namespace State.TransmitOk

variable {s : State} (ok : s.TransmitOk)

include ok

/-- The bounds speak of the transmit queue alone. -/
theorem of_queue {t : State} (same : t.cont.queue = s.cont.queue) : t.TransmitOk := by
  rw [transmitOk_iff] at ok ⊢
  rwa [same]

theorem of_cont {t : State} (same : t.cont = s.cont) : t.TransmitOk := ok.of_queue (congrArg Contention.queue same)

theorem withOwed (x : Owed) : (s.withOwed x).TransmitOk := ok

theorem withCap (x : CaptureUnit) : (s.withCap x).TransmitOk := ok

theorem withLine (x : LineUnit) : (s.withLine x).TransmitOk := ok

/-- A request that is appended is no BEACON (R20). -/
theorem enqueue {p : Payload} (kind : p.kind ≠ .beacon) (selfDelivery : Bool) (entry : Option (Fin 16)) :
    (s.enqueue (.fresh p selfDelivery entry)).1.TransmitOk := by
  rcases s.enqueue_cases (.fresh p selfDelivery entry) with ⟨_, h⟩ | ⟨_, room, h⟩ | ⟨_, _, h⟩
  · rwa [h]
  · rw [h, transmitOk_iff]
    exact (s.transmitOk_iff.1 ok).append room (fun beacon => absurd beacon kind) rfl (TxRecord.marksOk_fresh p selfDelivery entry)
  · rwa [h]

theorem requestBeacon (body : BeaconBody) : (s.requestBeacon body).TransmitOk := by
  rw [transmitOk_iff, cont_requestBeacon]
  split
  · exact (s.transmitOk_iff.1 ok).beaconQueue body
  · exact s.transmitOk_iff.1 ok

theorem purged {t : State} (purges : t.cont.queue = s.cont.purged.queue) : t.TransmitOk := by
  rw [transmitOk_iff, purges]
  exact (s.transmitOk_iff.1 ok).purged

/-! ### What the exchange unit hands on -/

theorem refuse (id : ActionId) (reason : Byte) : (s.refuse id reason).TransmitOk :=
  (ok.enqueue (p := .refuse id.origin id.serial reason) nofun false none).of_cont (s.cont_refuse id reason)

theorem takeHandedOn : s.takeHandedOn.TransmitOk := by
  unfold State.takeHandedOn
  split
  · exact ok
  · rename_i sender p rest _
    have claimed := (s.withOwed { s.owed with exchange := rest }).cont_applyClaim sender .remote p
    split <;> (rename_i h; rw [h] at claimed; exact ok.of_cont claimed)
  · exact (ok.withOwed _).refuse _ _

theorem takeAllHandedOn : s.takeAllHandedOn.TransmitOk := List.foldlRecOn _ _ ok fun _ ok _ _ => ok.takeHandedOn

theorem takeRemote (atOnce : Bool) (sender : Station) (p : Payload) : (s.takeRemote atOnce sender p).TransmitOk := by
  unfold State.takeRemote
  split
  · split
    · exact (ok.withOwed _).takeAllHandedOn
    · exact ok
  · exact ok

/-! ### Departures and boundaries -/

theorem enterStopped (cause : Cause) : (s.enterStopped cause).TransmitOk := by
  unfold State.enterStopped
  obtain ⟨_, _, _, cont, _⟩ := s.teardownToStopped_blocks cause
  split
  · exact ok.of_queue rfl
  · exact ok.purged (by rw [cont]; rfl)
  · exact ok.purged (by rw [cont]; rfl)
  all_goals exact ok

theorem takeVerdict (v : Verdict) : (s.takeVerdict v).TransmitOk := by
  have torn (cause : Cause) : (s.teardownToListen cause).TransmitOk := by
    obtain ⟨_, _, _, cont, _⟩ := s.teardownToListen_blocks cause
    exact ok.purged (by rw [cont])
  rcases v.effect_cases s.member.state with ⟨rfl, state⟩ | ⟨rfl, state⟩ | ⟨rfl, state⟩ | void
  · rw [takeVerdict_join state]
    exact ok.of_cont rfl
  · rw [takeVerdict_joinFailure state]
    exact torn _
  · rw [takeVerdict_split state]
    exact torn _
  · rwa [takeVerdict_void void]

theorem takeHandedVerdict : s.takeHandedVerdict.TransmitOk := by
  unfold State.takeHandedVerdict
  split
  · exact ok
  · exact ((ok.of_cont (s.cont_dropVerdict _)).takeVerdict _).of_cont (cont_lineErrors _ _ _ _ _)

theorem evaluation (turn : LineTurn) : (s.evaluation turn).TransmitOk :=
  (ok.requestBeacon s.evaluatedBeacon).of_cont (s.cont_evaluation turn)

theorem evaluationOwed (turn : LineTurn) : (s.evaluationOwed turn).TransmitOk := by
  unfold State.evaluationOwed
  split
  · exact ok.evaluation turn
  · exact ok

theorem boundaryOwed (turn : LineTurn) : (s.boundaryOwed turn).TransmitOk := by
  unfold State.boundaryOwed
  split
  · exact (ok.evaluation turn).takeHandedVerdict
  · exact ok

/-! ### Edges and their reflexes -/

theorem reflex (earlier : Nat) (atOnce : Bool) (n : Fin 16) (input : Fin 8) (edge : EdgeDir) (stamp : Time) :
    (s.reflex earlier atOnce n input edge stamp).TransmitOk := by
  unfold State.reflex
  dsimp only
  split
  · split
    · exact (ok.enqueue (p := .event _ _ _ _ _) nofun false (some n)).of_cont (s.cont_publish earlier n _ stamp)
    · exact (ok.enqueue (p := .action _) nofun true (some n)).of_cont (s.cont_reflexPost earlier n _ stamp)
    · exact ok.of_cont (s.cont_reflexLocal atOnce _ stamp)
  · exact ok

theorem runReflexes (atOnce : Bool) (input : Fin 8) (edge : EdgeDir) (stamp : Time) :
    (s.runReflexes atOnce input edge stamp).TransmitOk := by
  unfold State.runReflexes
  generalize List.finRange 16 = entries
  exact List.foldlRecOn entries _ ok fun _ ok n _ => ok.reflex _ atOnce n input edge stamp

theorem takeEdge (atOnce : Bool) (input : Fin 8) (edge : EdgeDir) (first : SampleRecord) :
    (s.takeEdge atOnce input edge first).TransmitOk := by
  have entered (body : LogBody) : (s.enterLog body).1.TransmitOk := ok.of_cont (s.cont_enterLog body)
  unfold State.takeEdge
  dsimp only
  split
  · split
    · exact (entered _).runReflexes _ _ _ _
    · exact entered _
  · exact ok

theorem qualify (atOnce : Bool) (input : Fin 8) : (s.qualify atOnce input).TransmitOk := by
  unfold State.qualify
  split
  · exact ok
  dsimp only
  split
  · exact ok
  split
  · exact (ok.withCap _).takeEdge _ _ _ _
  · exact ok

end State.TransmitOk

end Sys2Proof.Machine
end

section
/-! PROOFS. The bounds of the transmit queue under the attempts of an own frame (R25, R29, R31) and under reception. -/

namespace Sys2Proof.Machine

theorem State.cont_takeBeacon (s : State) (sender : Station) (time : Time) (body : BeaconBody) (sof : Option SofRecord) :
    (s.takeBeacon sender time body sof).cont = s.cont := by
  unfold takeBeacon recordBeacon
  split
  · split <;> rfl
  · split <;> rfl
  · split <;> rfl
  all_goals rfl

theorem State.cont_takeEvent (s : State) (sender : Station) (selector : Half) (channel : Fin 8) (edge : EdgeDir) (stamp : Time)
    (sequence : Half) : (s.takeEvent sender selector channel edge stamp sequence).cont = s.cont := by
  unfold takeEvent
  split
  · exact cont_enterLog _ _
  · rfl

theorem State.cont_takeRefuse (s : State) (sender origin : Station) (serial : Half) (reason : Byte) :
    (s.takeRefuse sender origin serial reason).cont = s.cont := by
  unfold takeRefuse
  split <;> rfl

/-! ### The own frame -/

namespace State.TransmitOk

variable {s : State} (ok : s.TransmitOk)

include ok

theorem transmissionFailed : s.transmissionFailed.TransmitOk := by
  have bounded := s.transmitOk_iff.1 ok
  rcases bounded.sent_cases with none | ⟨before, r, after, queue, sent, others⟩
  · have unsent : s.cont.queue.find? (·.inTransmission) = .none := by simpa using none
    simpa only [State.transmissionFailed, unsent] using ok
  rw [queue] at bounded
  obtain ⟨_, void⟩ := bounded.marks r (by simp)
  have removed := bounded.sublist ((List.sublist_cons_self r after).append_left before)
  cases hv : r.isVoid with
  | true =>
    rw [transmissionFailed_void queue sent others hv, transmitOk_iff]
    exact removed
  | false =>
    by_cases few : r.attempts < 7
    · rw [transmissionFailed_again queue sent others hv few, transmitOk_iff]
      exact bounded.replace rfl nofun ⟨few, fun h => absurd h (by simp [hv])⟩
    · rw [transmissionFailed_abandoned queue sent others hv (by omega), transmitOk_iff]
      exact removed

theorem transmissionSucceeded : s.transmissionSucceeded.TransmitOk := by
  have bounded := s.transmitOk_iff.1 ok
  rcases bounded.sent_cases with none | ⟨before, r, after, queue, sent, others⟩
  · have unsent : s.cont.queue.find? (·.inTransmission) = .none := by simpa using none
    simpa only [State.transmissionSucceeded, unsent] using ok
  rw [queue] at bounded
  have removed : (s.withCont { s.cont with queue := before ++ after }).TransmitOk :=
    (transmitOk_iff _).2 (bounded.sublist ((List.sublist_cons_self r after).append_left before))
  rw [transmissionSucceeded_eq queue sent others]
  split
  · exact removed
  · exact removed.of_cont (selfDeliver_frame _ _).2

/-- A frame starts while no other is in transmission (R23, R25). -/
theorem startFrame (place : Nat) (unsent : ∀ x ∈ s.cont.queue, x.inTransmission = false) : (s.startFrame place).TransmitOk := by
  unfold State.startFrame
  split
  · exact ok
  · rename_i r held
    have bounded := s.transmitOk_iff.1 ok
    have marks := bounded.marks r (List.mem_of_getElem? held)
    rw [transmitOk_iff]
    exact bounded.set held rfl unsent ⟨marks.1, fun _ => rfl⟩

/-- A slot marks the offered record, and offers none while another is in transmission (R23, R25). -/
theorem idleSlot : LeadsTo TransmitOk (exec .idleSlot s) := by
  have begun : s.beginSlot.TransmitOk := ok
  cases idle : s.cont.idle with
  | false =>
    rw [exec_idleSlot_unmet idle]
    exact .next ok
  | true =>
    cases offer : s.chooseOffer with
    | none =>
      rw [exec_idleSlot_silent idle offer]
      exact .next begun
    | some o =>
      rw [exec_idleSlot_offer idle offer]
      refine .next ?_
      split
      · refine begun.startFrame _ fun x hx => Bool.eq_false_iff.2 fun sent => ?_
        rw [chooseOffer_eq_none (s := s) (.inr ⟨x, hx, sent⟩)] at offer
        cases offer
      · exact begun

/-! ### Reception -/

/-- Of a valid frame only a claim and a duplicate number reach the transmit queue (R15, R16, R136). -/
theorem handOn (atOnce : Bool) (f : Frame) (sof : Option SofRecord) : (s.handOn atOnce f sof).TransmitOk := by
  unfold State.handOn
  split
  · exact ok.enterStopped .duplicate
  · cases f.payload with
    | beacon time body => exact ok.of_cont (s.cont_takeBeacon _ _ _ _)
    | action fields => exact ok.takeRemote _ _ _
    | amend selector serial new => exact ok.takeRemote _ _ _
    | cancel selector serial => exact ok.takeRemote _ _ _
    | event selector channel edge stamp sequence => exact ok.of_cont (s.cont_takeEvent _ _ _ _ _ _)
    | refuse origin serial reason => exact ok.of_cont (s.cont_takeRefuse _ _ _ _)

theorem receive (atOnce : Bool) (f : PartialFrame) (samples : List Bool) : (s.receive atOnce f samples).TransmitOk := by
  unfold State.receive
  dsimp only
  cases takeSamples f samples with
  | more f' => exact ok
  | truncated => exact ok
  | error => exact ok
  | valid frame => exact (ok.withLine _).handOn _ _ _

theorem afterMismatch (bit : Nat) : (s.afterMismatch bit).TransmitOk := by
  unfold State.afterMismatch
  dsimp only
  cases s.line.afterSend with
  | off => exact ok
  | seek => exact ok
  | inStep => exact (ok.withLine _).receive _ _ _

theorem stick : s.stick.TransmitOk := by
  unfold State.stick
  dsimp only
  split <;> exact ok

end State.TransmitOk

end Sys2Proof.Machine
end

section
/-! PROOFS. The bounds of the transmit queue in every row, and so in every step. -/

namespace Sys2Proof.Machine

/-! ### The commands -/

namespace State.TransmitOk

variable {s : State} (ok : s.TransmitOk)

include ok

/-- A command's own part decides; a refused state changes nothing of the queue (R173). -/
theorem guarded {own : State → State} (c : Command) (kept : (own s).TransmitOk) : (s.guarded c own).TransmitOk := by
  unfold State.guarded
  split
  · exact kept
  · exact ok

theorem sendCommand {p : Payload} (c : Command) (kind : p.kind ≠ .beacon) : (s.sendCommand c p).TransmitOk :=
  (ok.enqueue kind true none).of_cont (s.cont_sendCommand c p)

/-- Of the commands STOP, START and those with cluster scope reach the contention unit (R89, R142). -/
theorem run (c : Command) : (s.run c).TransmitOk := by
  cases c with
  | nop => exact ok.guarded _ ok
  | status => exact ok.guarded _ ok
  | readPeers => exact ok.guarded _ ok
  | stop => exact ok.guarded _ (ok.enterStopped .stop)
  | snapshot => exact ok.guarded _ (ok.of_cont (s.cont_enterLog _))
  | configure block =>
    refine ok.guarded _ ?_
    split <;> exact ok
  | start =>
    refine ok.guarded _ ?_
    split
    · exact ok.of_queue rfl
    · exact ok.of_queue rfl
  | post scope fields =>
    refine ok.guarded _ ?_
    split
    · exact ok
    split
    · exact ok
    split
    · exact ok.of_cont (s.cont_insert _)
    · exact ok.sendCommand _ nofun
  | amend scope selector serial new =>
    refine ok.guarded _ ?_
    split
    · exact ok
    split
    · exact ok.of_cont (s.cont_amendEntry _ _)
    · exact ok.sendCommand _ nofun
  | cancel scope selector serial =>
    refine ok.guarded _ ?_
    split
    · exact ok
    split
    · exact ok.of_cont (s.cont_cancelEntry _)
    · exact ok.sendCommand _ nofun
  | find origin serial =>
    refine ok.guarded _ ?_
    split
    · exact ok
    dsimp only
    split <;> exact ok
  | readLog count =>
    refine ok.guarded _ ?_
    split <;> exact ok
  | readReports count =>
    refine ok.guarded _ ?_
    split <;> exact ok
  | drive line kind =>
    refine ok.guarded _ ?_
    split
    · exact ok
    split <;> exact ok

/-! ### The tick -/

theorem fireOwed : s.fireOwed.TransmitOk := by
  unfold State.fireOwed
  split
  · exact ok
  split
  · exact ok.of_cont (s.cont_fireDue _)
  · exact ok

theorem foundOwed : s.foundOwed.TransmitOk := by
  unfold State.foundOwed
  split
  · exact ok.of_cont rfl
  · exact ok

theorem runDue : s.runDue.TransmitOk := by
  unfold State.runDue
  split
  · split
    · exact ok.run _
    · exact ok
  · exact ok
  · exact ok

theorem endPulses (lines : List (Fin 8)) : (lines.foldl (fun s l => s.endPulse l) s).TransmitOk :=
  List.foldlRecOn lines _ ok fun u ok l _ => ok.of_cont (u.cont_endPulse l)

theorem qualifyAll (inputs : List (Fin 8)) : (inputs.foldl (fun s i => s.qualify true i) s).TransmitOk :=
  List.foldlRecOn inputs _ ok fun _ ok i _ => ok.qualify true i

/-- What is left of the last tick is taken by operations that keep the bounds (log 1). -/
theorem settle : s.settle.TransmitOk := by
  have handedOver := (ok.of_cont s.cont_insertHandedOver).takeAllHandedOn.takeHandedVerdict
  unfold State.settle
  generalize List.finRange 8 = lines
  exact (((handedOver.endPulses lines).fireOwed.boundaryOwed .first).qualifyAll lines).foundOwed.runDue

theorem tickNow (levels : BitVec 8) : (s.tickNow levels).TransmitOk := by
  refine ok.of_cont ?_
  unfold State.tickNow
  dsimp only
  split <;> simp

end State.TransmitOk

/-! ### The rows -/

namespace State.TransmitOk

variable {s : State} (ok : s.TransmitOk)

include ok

/-- A row of a command executes nothing, or a command (R172). -/
theorem row (c : Command) : LeadsTo TransmitOk (exec c.row s) := by
  rcases exec_row_cases s c with same | ⟨d, runs⟩
  · rw [same]
    exact .next ok
  · rw [runs]
    exact .next (ok.run d)

/-- The rows of idle and of start edges leave the transmit queue as it is (R6, R22). -/
theorem lineIdle : LeadsTo TransmitOk (execLineIdle s) := by
  unfold execLineIdle
  split <;> exact .next ok

theorem startOfFrame : LeadsTo TransmitOk (execStartOfFrame s) := by
  unfold execStartOfFrame
  split <;> exact .next ok

theorem rejectedStartEdge : LeadsTo TransmitOk (execRejectedStartEdge s) := by
  unfold execRejectedStartEdge
  cases s.line.receiver with
  | off | send | stuck | seek | wait => exact .next ok
  | receive =>
    dsimp only
    split
    · exact .next ok
    split <;> exact .next ok

theorem frameTruncated : LeadsTo TransmitOk (execFrameTruncated s) := by
  unfold execFrameTruncated
  split
  · split <;> exact .next ok
  · exact .next ok

theorem frameCompletion (event : FrameEvent) : LeadsTo TransmitOk (execFrameCompletion event s) := by
  have complete (atOnce : Bool) (samples : List Bool) : (s.complete atOnce samples).TransmitOk := by
    unfold State.complete
    split
    · exact ok.receive atOnce _ samples
    · exact ok
  cases event with
  | whole samples => exact .next (complete true samples)
  | handOver samples => exact .next (complete false samples)
  | next => exact .next ok.takeHandedOn

theorem transmissionSuccess : LeadsTo TransmitOk (execTransmissionSuccess s) := by
  unfold execTransmissionSuccess endSend
  split
  · exact .next (ok.withLine _).transmissionSucceeded
  · exact .next ok

theorem readbackMismatch (bit : Nat) : LeadsTo TransmitOk (execReadbackMismatch bit s) := by
  unfold execReadbackMismatch
  split
  · exact .next (ok.transmissionFailed.afterMismatch bit)
  · exact .next ok

/-- A line that sticks in SEND fails the attempt first (log 11). -/
theorem lineStuck : LeadsTo TransmitOk (execLineStuck s) := by
  unfold execLineStuck
  cases s.line.receiver with
  | off => exact .next ok
  | stuck => exact .next ok
  | seek => exact .next ok.stick
  | wait => exact .next ok.stick
  | receive => exact .next ok.stick
  | send =>
    cases s.line.afterSend with
    | off => exact .next ok.transmissionFailed
    | inStep => exact .next ok.transmissionFailed.stick
    | seek => exact .next ok.transmissionFailed.stick

theorem stuckRunEnd : LeadsTo TransmitOk (execStuckRunEnd s) := by
  unfold execStuckRunEnd
  split <;> exact .next ok

theorem lineReleased : LeadsTo TransmitOk (execLineReleased s) := by
  unfold execLineReleased
  split <;> exact .next ok

theorem transactionBegin : LeadsTo TransmitOk (execTransactionBegin s) := by
  unfold execTransactionBegin beginTransaction
  split
  · refine .next ?_
    split <;> exact ok
  · exact .next ok

theorem transactionEnd (bits cut : List Bool) : LeadsTo TransmitOk (execTransactionEnd bits cut s) := by
  unfold execTransactionEnd endTransaction
  split
  · exact .next ok
  · refine .next ?_
    split
    · exact ok
    split <;> exact ok

/-- Every row keeps the bounds. A row of a command runs the command that the port holds, so that the parameters named here are of no
account. -/
theorem everyRow (i : Instr) : LeadsTo TransmitOk (exec i s) := by
  cases i with
  | hardwareReset => exact .next ((transmitOk_iff _).2 .nil)
  | tick levels => exact .next (ok.settle.tickNow levels)
  | roundBoundary event =>
    cases event with
    | whole turn => exact .next (ok.boundaryOwed turn)
    | evaluation turn => exact .next (ok.evaluationOwed turn)
    | verdict => exact .next ok.takeHandedVerdict
  | listenWindowExpiry => exact .next ok.foundOwed
  | firing => exact .next ok.fireOwed
  | pulseEnd line => exact .next (ok.of_cont (s.cont_endPulse line))
  | edgeQualified event =>
    cases event with
    | whole input => exact .next (ok.qualify true input)
    | handOver input => exact .next (ok.qualify false input)
    | insertion => exact .next (ok.of_cont s.cont_insertNext)
  | lineIdle => exact ok.lineIdle
  | idleSlot => exact ok.idleSlot
  | startOfFrame => exact ok.startOfFrame
  | frameTruncated => exact ok.frameTruncated
  | frameCompletion event => exact ok.frameCompletion event
  | transmissionSuccess => exact ok.transmissionSuccess
  | readbackMismatch bit => exact ok.readbackMismatch bit
  | lineStuck => exact ok.lineStuck
  | lineReleased => exact ok.lineReleased
  | transactionBegin => exact ok.transactionBegin
  | transactionEnd bits cut => exact ok.transactionEnd bits cut
  | stuckRunEnd => exact ok.stuckRunEnd
  | rejectedStartEdge => exact ok.rejectedStartEdge
  | nop => exact ok.row .nop
  | status => exact ok.row .status
  | configure => exact ok.row (.configure [])
  | start => exact ok.row .start
  | stop => exact ok.row .stop
  | post => exact ok.row (.post 0 (actionFieldsAt [] 0))
  | amend => exact ok.row (.amend 0 0 0 ⟨0, 0⟩)
  | cancel => exact ok.row (.cancel 0 0 0)
  | find => exact ok.row (.find 0 0)
  | readLog => exact ok.row (.readLog 0)
  | readReports => exact ok.row (.readReports 0)
  | readPeers => exact ok.row .readPeers
  | snapshot => exact ok.row .snapshot
  | drive => exact ok.row (.drive 0 0)

end State.TransmitOk

/-- Settles O51: what every row keeps, by the operations that it is made of. -/
theorem transmitKept : Obligations.TransmitKept := step_keeps (fun _ _ ok => ok) fun i _ ok => ok.everyRow i

end Sys2Proof.Machine
end

section
/-! PROOFS. The contention value (R24) and the commands with cluster scope (R20, R142, R175). -/

namespace Sys2Proof.Machine

/-! ### The contention value -/

theorem rank_lt (number : Station) (round : Time) : rank number round < 16 := Nat.mod_lt _ (by decide)

/-- The rank is the difference of the two numbers modulo 16 (R24). -/
theorem rank_eq (number : Station) (round : Time) : (rank number round : Int) = (number.val - round.toNat : Int) % 16 := by
  unfold rank
  omega

theorem rank_injective (round : Time) : Function.Injective fun number => rank number round := by
  intro a b same
  have same : (rank a round : Int) = rank b round := congrArg Nat.cast same
  rw [rank_eq, rank_eq] at same
  have := a.isLt
  have := b.isLt
  exact Fin.ext (by omega)

theorem contentionValue_eq (frameClass : Nat) (number : Station) (round : Time) :
    contentionValue frameClass number round = 16 * frameClass + rank number round := rfl

/-- Settles O24: the classes and the kinds of a state by their tables, the value and its band by the rank. -/
theorem Proofs.contentionValue : Obligations.ContentionValue := by
  unfold Obligations.ContentionValue
  refine ⟨TxRecord.frameClass_eq, takesKind_iff, fun frameClass number round => ?value, fun frameClass number round => ?band,
    fun a b round same => rank_injective round same⟩
  case value =>
    rw [← rank_eq, contentionValue_eq]
    push_cast
    rfl
  case band =>
    have := rank_lt number round
    rw [contentionValue_eq]
    omega

/-! ### The commands with cluster scope -/

section

variable {s : State} {c : Command}

/-- A command that is allowed does its own part (R172, R173). -/
theorem State.guarded_of_allowed (own : State → State) (allowed : c.allowedIn s.member.state = true) : s.guarded c own = own s :=
  if_pos allowed

theorem State.runPost_of_member {scope : Byte} {f : ActionFields} (member : s.member.state = .member) : s.runPost scope f =
    if 1 < scope.toNat then s.answer (.post scope f) .badParam []
    else if Config.firstReflexSerial.toNat ≤ f.serial.toNat then s.answer (.post scope f) .badSerial []
    else if scope = 0 then
      (s.insert (f.entry s.number .localCommand)).1.answer (.post scope f) (insertCode (s.insert (f.entry s.number .localCommand)).2) []
    else s.sendCommand (.post scope f) (.action f) := by
  unfold runPost
  exact guarded_of_allowed (c := .post scope f) _ (decide_eq_true member)

theorem State.runAmend_of_member {scope : Byte} {selector serial : Half} {new : Repeat} (member : s.member.state = .member) :
    s.runAmend scope selector serial new =
      if 1 < scope.toNat then s.answer (.amend scope selector serial new) .badParam []
      else if scope = 0 then
        (s.amendEntry { origin := s.number, serial := serial } new).1.answer (.amend scope selector serial new)
          (amendCode (s.amendEntry { origin := s.number, serial := serial } new).2) []
      else s.sendCommand (.amend scope selector serial new) (.amend selector serial new) := by
  unfold runAmend
  exact guarded_of_allowed (c := .amend scope selector serial new) _ (decide_eq_true member)

theorem State.runCancel_of_member {scope : Byte} {selector serial : Half} (member : s.member.state = .member) :
    s.runCancel scope selector serial =
      if 1 < scope.toNat then s.answer (.cancel scope selector serial) .badParam []
      else if scope = 0 then
        (s.cancelEntry { origin := s.number, serial := serial }).1.answer (.cancel scope selector serial)
          (cancelCode (s.cancelEntry { origin := s.number, serial := serial }).2) []
      else s.sendCommand (.cancel scope selector serial) (.cancel selector serial) := by
  unfold runCancel
  exact guarded_of_allowed (c := .cancel scope selector serial) _ (decide_eq_true member)

/-- The frame of a cluster-scope command in MEMBER: queued while fewer than 8 records are held, and else not (R20, R142). -/
theorem State.sendCommand_of_member (p : Payload) (member : s.member.state = .member) : s.sendCommand c p =
    if s.cont.queue.length < 8 then
      (s.withCont { s.cont with queue := s.cont.queue ++ [.fresh p true none] }).answer c .ok []
    else s.answer c .txFull [] := by
  unfold sendCommand
  rcases s.enqueue_cases (.fresh p true none) with ⟨refused, _⟩ | ⟨_, room, h⟩ | ⟨_, full, h⟩
  · rw [(takesKind_iff _ _).2 (.inl member)] at refused
    cases refused
  · rw [h, if_pos room]
    rfl
  · rw [h, if_neg (by omega)]
    rfl

end

/-- Settles O43: each command runs its own part, which is `State.sendCommand` for the scope 1. -/
theorem clusterScope : Obligations.ClusterScope := by
  unfold Obligations.ClusterScope
  refine ⟨fun s n scope selector serial new c least most work member outside which => ?outside,
    fun s n c payload least most work member which => ?cluster⟩
  case outside =>
    rw [s.exec_row c n work least most]
    refine congrArg _ ?_
    rcases which with rfl | rfl
    · exact (State.runAmend_of_member member).trans (if_pos outside)
    · exact (State.runCancel_of_member member).trans (if_pos outside)
  case cluster =>
    have sends : s.run c = s.sendCommand c payload := by
      rcases which with ⟨a, rfl, serial, rfl⟩ | ⟨selector, serial, new, rfl, rfl⟩ | ⟨selector, serial, rfl, rfl⟩
      · have free : ¬ Config.firstReflexSerial.toNat ≤ a.serial.toNat := Nat.not_le.2 serial
        exact (State.runPost_of_member member).trans (if_neg free)
      · exact State.runAmend_of_member member
      · exact State.runCancel_of_member member
    rw [s.exec_row c n work least most, sends, State.sendCommand_of_member payload member]
    refine ⟨fun room => ?_, fun full => ?_⟩
    · rw [if_pos room]
      rfl
    · rw [if_neg (by omega)]
      rfl

end Sys2Proof.Machine
end

section
/-! PROOFS. The beacon of an evaluation (R65) and the place it takes in the transmit queue (R21). -/

namespace Sys2Proof.Machine

/-! ### The place of a beacon in the queue -/

section

variable {queue : List TxRecord} (body : BeaconBody)

/-- A BEACON in transmission is left, and the new one is dropped (R21). -/
theorem beaconQueue_of_sent (sent : ∃ x ∈ queue, x.kind = .beacon ∧ x.inTransmission = true) : State.beaconQueue queue body = queue := by
  have found : queue.any (fun x => x.kind = .beacon && x.inTransmission) = true := by simpa using sent
  exact if_pos found

/-- A BEACON that waits is replaced in its place (R21). -/
theorem beaconQueue_of_waiting (unsent : ∀ x ∈ queue, x.kind = .beacon → x.inTransmission = false)
    (held : ∃ x ∈ queue, x.kind = .beacon) : State.beaconQueue queue body =
      queue.map fun x => if x.kind = .beacon then .fresh (.beacon none body) false none else x := by
  have notSent : ¬ queue.any (fun x => x.kind = .beacon && x.inTransmission) = true := by simpa using unsent
  have found : queue.any (fun x => x.kind = .beacon) = true := by simpa using held
  exact (if_neg notSent).trans (if_pos found)

/-- With no BEACON held the new one is appended, if there is room (R20, R21). -/
theorem beaconQueue_of_none (none : ∀ x ∈ queue, x.kind ≠ .beacon) : State.beaconQueue queue body =
    if queue.length < 8 then queue ++ [.fresh (.beacon .none body) false .none] else queue := by
  have notSent : ¬ queue.any (fun x => x.kind = .beacon && x.inTransmission) = true := by
    simpa using fun x hx beacon => absurd beacon (none x hx)
  have notHeld : ¬ queue.any (fun x => x.kind = .beacon) = true := by simpa using none
  exact (if_neg notSent).trans (if_neg notHeld)

end

/-! ### The fields of the beacon -/

theorem mem_stationsWhere (peers : Vector PeerRecord 16) (test : PeerRecord → Bool) (i : Station) :
    i ∈ stationsWhere peers test ↔ test peers[i] = true := by simp [stationsWhere]

theorem length_stationsWhere_le (peers : Vector PeerRecord 16) (test : PeerRecord → Bool) : (stationsWhere peers test).length ≤ 16 :=
  (List.length_filter_le _ _).trans (by simp)

theorem getLsbD_stationBit : ∀ i j : Station, ((1 <<< j.val : Nat) : Half).getLsbD i = decide (i = j) := by decide

/-- A bitmap of stations has the bits of those stations. -/
theorem getLsbD_bitmap (stations : List Station) (start : Half) (i : Station) :
    (stations.foldl (fun m j => m ||| ((1 <<< j.val : Nat) : Half)) start).getLsbD i = (start.getLsbD i || decide (i ∈ stations)) := by
  induction stations generalizing start with
  | nil => simp
  | cons j rest ih =>
    rw [List.foldl_cons, ih, BitVec.getLsbD_or, getLsbD_stationBit, Bool.or_assoc]
    simp

section

variable (s : State)

/-- The beacon says of the table that the evaluation leaves how many records are SYNCED and which, the own station counted (R65). -/
theorem State.evaluatedBeacon_fields :
    (s.evaluatedBeacon.member = true ↔ s.member.state = .member ∨ s.verdict = .join)
    ∧ s.evaluatedBeacon.alone = (s.evaluatedPeers.toList.all fun r => r.state ≠ .synced)
    ∧ s.evaluatedBeacon.count.toNat = (stationsWhere s.evaluatedPeers fun r => r.state = .synced).length + 1
    ∧ ∀ i : Fin 16, s.evaluatedBeacon.bitmap.getLsbD i = decide ((s.evaluatedPeers[i]).state = .synced) := by
  refine ⟨by simp [evaluatedBeacon, ownBeacon], ?alone, ?count, fun i => ?bitmap⟩
  case alone =>
    simp only [evaluatedBeacon, ownBeacon]
    refine Bool.eq_iff_iff.2 ?_
    rw [all_toList_iff, List.isEmpty_iff, List.eq_nil_iff_forall_not_mem]
    simp only [mem_stationsWhere, decide_eq_true_eq, ne_eq]
  case count =>
    have few := length_stationsWhere_le s.evaluatedPeers fun r => r.state = .synced
    simp only [evaluatedBeacon, ownBeacon]
    exact (BitVec.toNat_ofNat _ _).trans (Nat.mod_eq_of_lt (by omega))
  case bitmap =>
    simp only [evaluatedBeacon, ownBeacon]
    rw [getLsbD_bitmap]
    simp [mem_stationsWhere]

/-- The request for the beacon is the last thing that a boundary makes of the transmit queue, unless the station departs (R65, R66). -/
theorem State.cont_boundary_of_stays {s : State} {turn : LineTurn} (stays : s.verdict = .none ∨ s.verdict = .join) :
    (s.boundary turn).cont = (s.requestBeacon s.evaluatedBeacon).cont := by
  rw [boundary_eq, cont_lineErrors, ← s.cont_evaluation turn]
  rcases s.takeVerdict_evaluated_cases turn with ⟨_, e⟩ | ⟨_, _, e⟩ | ⟨_, which, _, _⟩
  · rw [e]
    rfl
  · rw [e]
    rfl
  · rcases stays with h | h <;> simp [h] at which

end

/-- Settles O14: the fields by `State.evaluatedBeacon_fields`, the place in the queue by the cases of R21. -/
theorem ownBeacon : Obligations.OwnBeacon := by
  unfold Obligations.OwnBeacon
  intro s turn owed state stays
  obtain ⟨peers, alone⟩ := State.boundary_of_stays (turn := turn) stays
  obtain ⟨member, own, count, bitmap⟩ := s.evaluatedBeacon_fields
  have takes : takesKind .beacon s.member.state = true := by rcases state with h | h <;> simp [takesKind, h]
  have cont : (s.boundary turn).cont = { s.cont with queue := State.beaconQueue s.cont.queue s.evaluatedBeacon } := by
    rw [State.cont_boundary_of_stays stays, State.cont_requestBeacon, if_pos takes]
  refine ⟨_, s.evaluatedBeacon, (exec_roundBoundary_meets turn owed state).1, member, own.trans alone.symm, ?_, fun i => ?_, ?place⟩
  · rw [peers, count]
  · rw [peers, bitmap]
  case place =>
    dsimp only
    rw [cont]
    refine ⟨fun sent => ?_, fun unsent held => ?_, fun none room => ?_, fun none full => ?_⟩
    · rw [beaconQueue_of_sent _ sent]
    · rw [beaconQueue_of_waiting _ unsent held]
    · rw [beaconQueue_of_none _ none, if_pos room]
    · rw [beaconQueue_of_none _ none, if_neg (by omega)]

end Sys2Proof.Machine
end

section
/-! PROOFS. A valid ACTION of another station (R135–R137): its claim on the action queue and the REFUSE that answers it, taken at once or
one after the other (log 25). -/

namespace Sys2Proof.Machine

/-! ### The claim and the request -/

section

variable {s : State}

/-- A request for a REFUSE in MEMBER: queued while fewer than 8 records are held, and else reported as NOT_SENT (R20, R137). -/
theorem State.refuse_of_member (id : ActionId) (reason : Byte) (member : s.member.state = .member) : s.refuse id reason =
    if s.cont.queue.length < 8 then
      s.withCont { s.cont with queue := s.cont.queue ++ [.fresh (.refuse id.origin id.serial reason) false none] }
    else s.report (.notSent .refuse (.action id)) := by
  unfold refuse
  rcases s.enqueue_cases (.fresh (.refuse id.origin id.serial reason) false none) with ⟨refused, _⟩ | ⟨_, room, h⟩ | ⟨_, full, h⟩
  · rw [(takesKind_iff _ _).2 (.inl member)] at refused
    cases refused
  · rw [h, if_pos room]
  · rw [h, if_neg (by omega)]

/-- Outside MEMBER a request for a REFUSE is discarded (R19). -/
theorem State.refuse_of_not_member (id : ActionId) (reason : Byte) (other : s.member.state ≠ .member) : s.refuse id reason = s := by
  have refused : takesKind .refuse s.member.state = false :=
    Bool.eq_false_iff.2 fun takes => ((takesKind_iff _ _).1 takes).elim other (by simp)
  have discarded : s.enqueue (.fresh (.refuse id.origin id.serial reason) false none) = (s, .discarded) := if_pos (congrArg not refused)
  rw [refuse, discarded]

/-- The request for a REFUSE stands first among what is handed on, before `rest` (log 25). -/
def State.refusalFirst (sender : Station) (serial : Half) (rest : List HandedOn) (v : State) (reason : Byte) : State :=
  v.withOwed { v.owed with exchange := .refusal { origin := sender, serial := serial } reason :: rest }

/-- A claim handed on is an insertion, whose refusal makes a request (R136, R137). -/
theorem State.takeHandedOn_claim {sender : Station} {a : ActionFields} {rest : List HandedOn}
    (first : s.owed.exchange = .claim sender (.action a) :: rest) : s.takeHandedOn =
      (s.withOwed { s.owed with exchange := rest }).insertOr (a.entry sender .remote) (refusalFirst sender a.serial rest) := by
  unfold takeHandedOn
  rw [first]
  dsimp only
  rw [applyClaim, insertOr]
  rcases (s.withOwed { s.owed with exchange := rest }).insert (a.entry sender .remote) with ⟨v, result⟩
  cases result <;> rfl

theorem State.takeHandedOn_refusal {id : ActionId} {reason : Byte} {rest : List HandedOn}
    (first : s.owed.exchange = .refusal id reason :: rest) :
    s.takeHandedOn = (s.withOwed { s.owed with exchange := rest }).refuse id reason := by
  unfold takeHandedOn
  rw [first]

/-- A claim outside MEMBER is answered NOT MEMBER, with no report (R135, log 25). -/
theorem State.insertOr_of_not_member (e : Entry) (refused : State → Byte → State) (other : s.member.state ≠ .member) :
    s.insertOr e refused = s := by
  have result : s.insert e = (s, .notMember) := if_pos other
  rw [insertOr, result]
  rfl

/-- An insertion asks of its source only what a refusal makes of a state in which the station is what it was. -/
theorem State.insertOr_congr {e : Entry} {refused refused' : State → Byte → State}
    (same : ∀ v reason, v.member = s.member → refused v reason = refused' v reason) : s.insertOr e refused = s.insertOr e refused' := by
  unfold insertOr
  cases (s.insert e).2.reason with
  | none => rfl
  | some reason => exact same _ reason (s.member_insert e)

/-- The claim of a frame with nothing handed on before it, and the request it makes, taken at once (R136, R137). -/
theorem State.takeAllHandedOn_claim (sender : Station) (a : ActionFields) (none : s.owed.exchange = []) :
    (s.withOwed { s.owed with exchange := s.owed.exchange ++ [.claim sender (.action a)] }).takeAllHandedOn
      = s.insertOr (a.entry sender .remote) fun v reason => v.refuse { origin := sender, serial := a.serial } reason := by
  have same (v : State) (owed : v.owed = s.owed) : v.withOwed { v.owed with exchange := [] } = v := by
    rw [owed, ← none, ← owed]
    rfl
  rw [none, List.nil_append]
  generalize hu : s.withOwed { s.owed with exchange := [.claim sender (.action a)] } = u
  have held : u.owed.exchange = [.claim sender (.action a)] := by rw [← hu]; rfl
  have back : u.withOwed { u.owed with exchange := [] } = s := by rw [← hu]; exact same s rfl
  have twice : u.takeAllHandedOn = u.takeHandedOn.takeHandedOn := by unfold takeAllHandedOn; rw [held]; rfl
  rw [twice, takeHandedOn_claim held, back]
  have owed := s.owed_insert (a.entry sender .remote)
  unfold insertOr
  generalize s.insert (a.entry sender .remote) = inserted at owed
  obtain ⟨v, result⟩ := inserted
  cases hr : result.reason with
  | none => exact takeHandedOn_of_nil ((congrArg Owed.exchange owed).trans none)
  | some reason =>
    refine (takeHandedOn_refusal (s := refusalFirst sender a.serial [] v reason) rfl).trans ?_
    exact congrArg (refuse · _ reason) (same v owed)

/-! ### The frame -/

theorem State.complete_of_receive {f : PartialFrame} (atOnce : Bool) (samples : List Bool) (receives : s.line.receiver = .receive)
    (frame : s.line.frame = some f) : s.complete atOnce samples = s.receive atOnce f samples := by
  simp only [complete, receives, frame]

theorem State.line_takeRemote (atOnce : Bool) (sender : Station) (p : Payload) : (s.takeRemote atOnce sender p).line = s.line := by
  unfold takeRemote
  dsimp only
  split
  · split
    · exact line_takeAllHandedOn _
    · rfl
  · rfl

/-- A valid ACTION of another station, at the exchange unit (R15, R135). -/
theorem State.receive_action {f : PartialFrame} {samples : List Bool} {sender : Station} {a : ActionFields} (atOnce : Bool)
    (valid : takeSamples f samples = .valid { sender := sender, payload := .action a }) (other : sender ≠ s.number) :
    s.receive atOnce f samples = (s.withLine { s.line with
      receiver := .wait, sof := none, frame := none, dominantRun := runAfter s.line.dominantRun samples
      recessiveRun := 0 }).takeRemote atOnce sender (.action a) := by
  unfold receive
  rw [valid]
  exact if_neg other

theorem State.takeRemote_passedOver {sender : Station} {a : ActionFields} (atOnce : Bool)
    (passed : s.member.state ≠ .member ∨ s.passes a.selector = false) : s.takeRemote atOnce sender (.action a) = s := by
  refine if_neg fun h => ?_
  obtain ⟨member, admits⟩ := Bool.and_eq_true_iff.1 h
  rcases passed with notMember | out
  · exact notMember (of_decide_eq_true member)
  · exact Bool.false_ne_true (out.symm.trans admits)

theorem State.takeRemote_admitted {sender : Station} {a : ActionFields} (atOnce : Bool) (member : s.member.state = .member)
    (passes : s.passes a.selector = true) : s.takeRemote atOnce sender (.action a) =
      if atOnce then (s.withOwed { s.owed with exchange := s.owed.exchange ++ [.claim sender (.action a)] }).takeAllHandedOn
      else s.withOwed { s.owed with exchange := s.owed.exchange ++ [.claim sender (.action a)] } :=
  if_pos (Bool.and_eq_true_iff.2 ⟨decide_eq_true member, passes⟩)

end

/-- Settles O29: the frame is valid in WAIT, its claim an insertion by `State.insertOr_inserts`, its refusal by the cases of R20. -/
theorem inboundAction : Obligations.InboundAction := by
  unfold Obligations.InboundAction
  refine ⟨fun s f samples sender a receives frame valid other => ?frame, fun s sender a rest first => ?claim,
    fun s id reason rest first => ?refusal⟩
  case frame =>
    have takes (atOnce : Bool) := (State.complete_of_receive atOnce samples receives frame).trans (State.receive_action atOnce valid other)
    generalize hw : s.withLine { s.line with
      receiver := .wait, sof := none, frame := none, dominantRun := runAfter s.line.dominantRun samples, recessiveRun := 0 } = w at takes
    have waits : w.line.receiver = .wait := by rw [← hw]; rfl
    have base : s.withLine w.line = w := by rw [← hw]; rfl
    have state : w.member = s.member := by rw [← hw]; rfl
    have passes : w.passes a.selector = s.passes a.selector := by rw [← hw]; rfl
    have owed : w.owed = s.owed := by rw [← hw]; rfl
    have line (atOnce : Bool) := State.line_takeRemote (s := w) atOnce sender (.action a)
    refine ⟨_, _, congrArg Host.Outcome.next (takes true), (congrArg LineUnit.receiver (line true)).trans waits,
      congrArg Host.Outcome.next (takes false), (line false).trans (line true).symm, fun passed => ?_, fun member admitted => ?_⟩
    all_goals rw [line true, base]
    · rw [← state, ← passes] at passed
      rw [State.takeRemote_passedOver true passed, State.takeRemote_passedOver false passed]
      exact ⟨rfl, rfl⟩
    · rw [← state] at member
      rw [← passes] at admitted
      rw [State.takeRemote_admitted true member admitted, State.takeRemote_admitted false member admitted, ← owed]
      refine ⟨rfl, fun none => ?_⟩
      rw [if_pos rfl, State.takeAllHandedOn_claim sender a none]
      rw [State.insertOr_congr fun v reason same => State.refuse_of_member _ reason ((congrArg Membership.state same).trans member)]
      exact w.insertOr_inserts a sender .remote _ member
  case claim =>
    refine ⟨_, exec_frameCompletion_next s, fun other => ?_, fun member => ?_⟩
    all_goals rw [State.takeHandedOn_claim first]
    · exact State.insertOr_of_not_member _ _ other
    · exact State.insertOr_inserts _ a sender .remote (State.refusalFirst sender a.serial rest) member
  case refusal =>
    have took := (exec_frameCompletion_next s).trans (congrArg _ (State.takeHandedOn_refusal first))
    generalize hu : s.withOwed { s.owed with exchange := rest } = u at took
    have state : u.member = s.member := by rw [← hu]; rfl
    have cont : u.cont = s.cont := by rw [← hu]; rfl
    rw [← state, ← cont, took]
    refine ⟨fun other => ?_, fun member room => ?_, fun member full => ?_⟩
    · rw [State.refuse_of_not_member id reason other]
    · rw [State.refuse_of_member id reason member, if_pos room]
    · rw [State.refuse_of_member id reason member, if_neg (by omega)]

end Sys2Proof.Machine
end

section
/-! PROOFS. What a row may make of the station state, the clock, and what they fix of the other blocks: most operations leave these as they
are (`State.Steady`), and the rest is a list of moves (`State.Move`). Every row but TICK and HARDWARE_RESET is a chain of moves, so that
each statement about every row is proved once per move. -/

namespace Sys2Proof.Machine

/-- An operation that changes neither the station state nor the clock, and nothing that the two fix of the other blocks: it may take an
owed firing, change the action queue in MEMBER, and end or begin a command. -/
structure State.Steady (s t : State) : Prop where
  state : t.member.state = s.member.state
  number : t.member.number = s.member.number
  clock : t.clock = s.clock
  filters : t.cap.filters.isSome = s.cap.filters.isSome
  queue : s.member.state ≠ .member → t.sched.queue = s.sched.queue
  block : t.port.block = s.port.block
  cfg : t.cfg = s.cfg
  boundary : t.owed.boundary = s.owed.boundary
  fireFrom : t.owed.fireFrom = s.owed.fireFrom ∨ t.owed.fireFrom = none
  waited : ∀ n ∈ t.waited, n ∈ s.waited ∨ n = 0

/-- A command that the port holds before and after has waited as long. -/
theorem State.waited_congr {s t : State} (work : t.port.work = s.port.work) : t.waited = s.waited := by
  unfold State.waited
  rw [work]

namespace State.Steady

section

variable (s : State)

theorem refl : s.Steady s := ⟨rfl, rfl, rfl, rfl, fun _ => rfl, rfl, rfl, rfl, .inl rfl, fun _ h => .inl h⟩

theorem withLine (x : LineUnit) : s.Steady (s.withLine x) := { refl s with }
theorem withCont (x : Contention) : s.Steady (s.withCont x) := { refl s with }
theorem withSync (x : SyncUnit) : s.Steady (s.withSync x) := { refl s with }
theorem withOut (x : OutputUnit) : s.Steady (s.withOut x) := { refl s with }

theorem withCap {x : CaptureUnit} (filters : x.filters.isSome = s.cap.filters.isSome := by rfl) : s.Steady (s.withCap x) :=
  { refl s with filters := filters }

theorem withOwed {x : Owed} (boundary : x.boundary = s.owed.boundary := by rfl)
    (fireFrom : x.fireFrom = s.owed.fireFrom ∨ x.fireFrom = none := by exact .inl rfl) :
    s.Steady (s.withOwed x) := { refl s with boundary := boundary, fireFrom := fireFrom }

theorem withPort {x : ServicePort} (block : x.block = s.port.block := by rfl)
    (waited : ∀ n ∈ (s.withPort x).waited, n ∈ s.waited ∨ n = 0 := by exact fun _ => .inl) :
    s.Steady (s.withPort x) := { refl s with block := block, waited := waited }

theorem refreshAttn : s.Steady s.refreshAttn := { refl s with }
theorem queueReport (r : Report) : s.Steady (s.queueReport r) := { refl s with }
theorem report (d : ReportDetail) : s.Steady (s.report d) := { refl s with }

end

section

variable {s t u : State}

theorem trans (first : s.Steady t) (second : t.Steady u) : s.Steady u where
  state := second.state.trans first.state
  number := second.number.trans first.number
  clock := second.clock.trans first.clock
  filters := second.filters.trans first.filters
  queue other := (second.queue (first.state ▸ other)).trans (first.queue other)
  block := second.block.trans first.block
  cfg := second.cfg.trans first.cfg
  boundary := second.boundary.trans first.boundary
  fireFrom := second.fireFrom.elim (fun same => same ▸ first.fireFrom) .inr
  waited n held := (second.waited n held).elim (first.waited n) .inr

/-- Operations one after another. -/
theorem foldl {α : Type} {f : State → α → State} (each : ∀ (u : State) (x : α), u.Steady (f u x)) (l : List α) (s : State) :
    s.Steady (l.foldl f s) :=
  List.foldlRecOn l f (refl s) fun u before x _ => before.trans (each u x)

/-- An operation that touches no block but those of no account here, the action queue in MEMBER, and the reports. -/
theorem of_frame (queue : s.member.state ≠ .member → t.sched.queue = s.sched.queue) (member : t.member = s.member := by simp)
    (clock : t.clock = s.clock := by simp) (cap : t.cap = s.cap := by simp) (cfg : t.cfg = s.cfg := by simp)
    (owed : t.owed = s.owed := by simp) (block : t.port.block = s.port.block := by simp)
    (work : t.port.work = s.port.work := by simp) : s.Steady t where
  state := congrArg _ member
  number := congrArg _ member
  clock := clock
  filters := by rw [cap]
  queue := queue
  block := block
  cfg := cfg
  boundary := by rw [owed]
  fireFrom := .inl (by rw [owed])
  waited n held := .inl (waited_congr work ▸ held)

theorem active (steady : s.Steady t) : t.active = s.active := by unfold State.active; rw [steady.state]

end

/-! ### The operations -/

section

variable (s : State)

theorem queueReports (l : List Report) : s.Steady (s.queueReports l) := foldl queueReport l s

theorem logLoss (discarded : Option Half) : s.Steady (s.logLoss discarded) := by
  unfold State.logLoss
  split
  · exact refl s
  · exact (withCap s).trans (report _ _)

theorem appendLog (kept : List LogRecord) (body : LogBody) : s.Steady (s.appendLog kept body) := (withCap s).trans (refreshAttn _)

theorem enterLog (body : LogBody) : s.Steady (s.enterLog body).1 := by
  unfold State.enterLog
  split
  · exact appendLog s _ _
  · split
    · exact logLoss s _
    · exact (appendLog s _ _).trans (logLoss _ _)

theorem enqueue (r : TxRecord) : s.Steady (s.enqueue r).1 :=
  of_frame fun _ => by simp

theorem refuse (id : ActionId) (reason : Byte) : s.Steady (s.refuse id reason) :=
  of_frame fun _ => by simp

theorem lineErrors (now turn : LineTurn) (errors : Nat) (stamp : Time) : s.Steady (s.lineErrors now turn errors stamp) := by
  unfold State.lineErrors
  split
  · exact queueReport s _
  · exact refl s

theorem dropVerdict (turn : LineTurn) : s.Steady (s.dropVerdict turn) := (withOwed s).trans (withLine _ _)

theorem endPulse (l : Fin 8) : s.Steady (s.endPulse l) := by
  unfold State.endPulse
  split
  · split
    · exact withOut s _
    · exact refl s
  · exact refl s

/-! A claim on the action queue acts in MEMBER alone (R96). -/

theorem insert (e : Entry) : s.Steady (s.insert e).1 :=
  of_frame fun other => by simp [State.insert, other]

theorem amendEntry (id : ActionId) (new : Repeat) : s.Steady (s.amendEntry id new).1 :=
  of_frame fun other => by simp [State.amendEntry, other]

theorem cancelEntry (id : ActionId) : s.Steady (s.cancelEntry id).1 :=
  of_frame fun other => by simp [State.cancelEntry, other]

theorem applyClaim (origin : Station) (source : Source) (p : Payload) : s.Steady (s.applyClaim origin source p).1 := by
  cases p with
  | action f => exact insert s _
  | amend selector serial new => exact amendEntry s _ _
  | cancel selector serial => exact cancelEntry s _
  | beacon time body => exact refl s
  | event selector channel edge stamp sequence => exact refl s
  | refuse origin serial reason => exact refl s

theorem fire (e : Entry) (lateness : Option (BitVec 32)) (member : s.member.state = .member) : s.Steady (s.fire e lateness) :=
  of_frame fun other => absurd member other

/-- The firing that a tick owes takes what it owes, in MEMBER (R104). -/
theorem fireOwed : s.Steady s.fireOwed := by
  unfold State.fireOwed
  split
  · exact refl s
  split
  · rename_i c owed member
    unfold State.fireDue
    dsimp only
    generalize hu : ((s.withOwed { s.owed with fireFrom := none }).withSched _) = u
    have begun : s.Steady u := hu ▸
      { withOwed s (x := { s.owed with fireFrom := none }) rfl (.inr rfl) with queue := fun other => absurd member other }
    exact List.foldlRecOn _ _ begun fun v before e _ => before.trans (fire v e none (before.state.trans member))
  · exact refl s

/-! Edges and their reflexes (R150, R162) -/

theorem reportNotSent (earlier : Nat) (kind : FrameKind) (n : Fin 16) : s.Steady (s.reportNotSent earlier kind n) := by
  unfold State.reportNotSent
  split
  · exact report s _
  split
  · exact refl s
  · exact withOwed s

theorem takeSerial : s.Steady s.takeSerial := withCap s

theorem publish (earlier : Nat) (n : Fin 16) (x : ReflexEntry) (stamp : Time) : s.Steady (s.publish earlier n x stamp) := by
  have asked := enqueue s (.fresh (.event x.selector x.input x.edge stamp s.cap.eventCounter) false (some n))
  unfold State.publish
  split <;> rename_i answer <;> rw [answer] at asked
  · exact asked.trans (withCap _)
  · exact asked.trans (reportNotSent _ _ _ _)
  · exact asked

theorem reflexPost (earlier : Nat) (n : Fin 16) (x : ReflexEntry) (stamp : Time) : s.Steady (s.reflexPost earlier n x stamp) := by
  have asked := enqueue s (.fresh (.action (s.reflexAction x stamp)) true (some n))
  unfold State.reflexPost
  split <;> rename_i answer <;> rw [answer] at asked
  · exact asked.trans (takeSerial _)
  · exact asked.trans (reportNotSent _ _ _ _)
  · exact asked

theorem insertReflex (action : ActionFields) : s.Steady (s.insertReflex action) := by
  have inserted := insert s (action.entry s.number .reflex)
  unfold State.insertReflex
  dsimp only
  split
  · exact inserted
  · exact inserted.trans (report _ _)

theorem insertNext : s.Steady s.insertNext := by
  unfold State.insertNext
  split
  · exact refl s
  · exact ((withOwed s).trans (insertReflex _ _)).trans (queueReports _ _)

theorem insertHandedOver : s.Steady s.insertHandedOver := foldl (fun u _ => insertNext u) _ s

theorem reflexLocal (atOnce : Bool) (x : ReflexEntry) (stamp : Time) : s.Steady (s.reflexLocal atOnce x stamp) := by
  have handed := (takeSerial s).trans (withOwed s.takeSerial (x := { s.owed with
    insertions := s.owed.insertions ++ [{ action := s.reflexAction x stamp, behind := [] }] }) )
  unfold State.reflexLocal
  dsimp only
  split
  · exact handed.trans (insertHandedOver _)
  · exact handed

theorem reflex (earlier : Nat) (atOnce : Bool) (n : Fin 16) (input : Fin 8) (edge : EdgeDir) (stamp : Time) :
    s.Steady (s.reflex earlier atOnce n input edge stamp) := by
  unfold State.reflex
  dsimp only
  split
  · split
    · exact publish s _ _ _ _
    · exact reflexPost s _ _ _ _
    · exact reflexLocal s _ _ _
  · exact refl s

theorem takeEdge (atOnce : Bool) (input : Fin 8) (edge : EdgeDir) (first : SampleRecord) :
    s.Steady (s.takeEdge atOnce input edge first) := by
  unfold State.takeEdge
  dsimp only
  split
  · split
    · exact (enterLog s _).trans (foldl (fun u n => reflex u _ _ n _ _ _) _ _)
    · exact enterLog s _
  · exact refl s

theorem qualify (atOnce : Bool) (input : Fin 8) : s.Steady (s.qualify atOnce input) := by
  unfold State.qualify
  split
  · exact refl s
  · rename_i filters held
    dsimp only
    split
    · exact refl s
    split
    · exact (withCap s (by simp [held])).trans (takeEdge _ _ _ _ _)
    · exact refl s

/-! What the exchange unit hands on (R136–R139) -/

theorem takeHandedOn : s.Steady s.takeHandedOn := by
  unfold State.takeHandedOn
  split
  · exact refl s
  · rename_i sender p rest _
    have claimed := (withOwed s (x := { s.owed with exchange := rest }) ).trans (applyClaim _ sender .remote p)
    split <;> rename_i answer <;> rw [answer] at claimed
    · exact claimed
    · exact claimed.trans (withOwed _)
  · exact (withOwed s).trans (refuse _ _ _)

theorem takeAllHandedOn : s.Steady s.takeAllHandedOn := foldl (fun u _ => takeHandedOn u) _ s

end

end State.Steady

end Sys2Proof.Machine
end

section
/-! PROOFS. The moves: what a row makes of the station state, the clock and the blocks that they fix, each with the states in which it is
made. Every row but TICK and HARDWARE_RESET is a chain of moves. -/

namespace Sys2Proof.Machine

/-- A change of the station state or of the clock, or an operation that makes none. -/
inductive State.Move (s : State) : State → Prop
  | steady {t : State} (same : s.Steady t) : s.Move t
  /-- the evaluation of a boundary, with its correction (R41, R66) -/
  | evaluates (turn : LineTurn) (meets : s.meetsBoundary = true) : s.Move (s.evaluation turn)
  /-- R80 -/
  | founds (expired : s.windowExpired = true) : s.Move s.found
  /-- R48, R81 -/
  | adopts (time : Time) (sof : Option SofRecord) (listening : s.member.state = .listen) : s.Move (s.adopt time sof)
  /-- R83 -/
  | joins (joining : s.member.state = .joining) : s.Move (s.changeState .member .joined)
  /-- a join failure or a split (R84, R86) -/
  | leaves (cause : Cause) (timed : s.member.state = .joining ∨ s.member.state = .member) : s.Move (s.teardownToListen cause)
  /-- STOP or a duplicate number (R88–R90) -/
  | stops (cause : Cause) (active : s.active = true) : s.Move (s.enterStopped cause)
  /-- CONFIGURE (R76, R178) -/
  | configures (c : ConfigBlock) (inRange : c.inRange = true) (idle : s.member.state = .unconfigured ∨ s.member.state = .ready) :
      s.Move ((s.withPort { s.port with block := some c }).withMember { s.member with state := .ready })
  /-- START in READY (R77) -/
  | starts (c : ConfigBlock) (held : s.port.block = some c) (ready : s.member.state = .ready) : s.Move (s.startFromReady c)
  /-- START in STOPPED (R78), or in a READY that holds no block, which `State.PhaseOk` excludes -/
  | restarts (idle : s.member.state = .stopped ∨ (s.member.state = .ready ∧ s.port.block = none)) : s.Move s.enterListen

/-- A block that CONFIGURE takes is in range (R178). -/
theorem inRange_of_configOf {l : List Byte} {c : ConfigBlock} (judged : configOf l = some c) : c.inRange = true := by
  unfold configOf at judged
  split at judged
  · exact absurd judged nofun
  split at judged
  · obtain ⟨good, same⟩ := Option.ite_none_right_eq_some.1 judged
    rw [← Option.some.inj same]
    exact (Bool.and_eq_true_iff.1 good).1
  · exact absurd judged nofun

/-- Moves one after another. -/
abbrev State.Moves : State → State → Prop := Relation.ReflTransGen State.Move

theorem State.Moves.of_move {s t : State} (move : s.Move t) : s.Moves t := .single move

theorem State.Steady.moves {s t : State} (same : s.Steady t) : s.Moves t := .single (.steady same)

/-! ### The operations -/

section

variable (s : State)

theorem State.moves_enterStopped (cause : Cause) : s.Moves (s.enterStopped cause) := by
  by_cases active : s.active = true
  · exact .of_move (.stops cause active)
  · have void : s.enterStopped cause = s := by
      unfold enterStopped
      unfold State.active at active
      cases h : s.member.state <;> simp_all
    rw [void]

/-- The membership controller judges a verdict against the state it finds (R73). -/
theorem State.moves_takeVerdict (v : Verdict) : s.Moves (s.takeVerdict v) := by
  unfold takeVerdict
  split
  · rename_i joining
    unfold join
    rw [if_pos joining]
    exact .of_move (.joins joining)
  · rename_i joining
    exact .of_move (.leaves _ (.inl joining))
  · rename_i member
    exact .of_move (.leaves _ (.inr member))
  · exact .refl

theorem State.moves_takeHandedVerdict : s.Moves s.takeHandedVerdict := by
  unfold takeHandedVerdict
  split
  · exact .refl
  · exact ((Steady.dropVerdict s _).moves.trans (moves_takeVerdict _ _)).trans (Steady.lineErrors _ _ _ _ _).moves

theorem State.moves_evaluationOwed (turn : LineTurn) : s.Moves (s.evaluationOwed turn) := by
  unfold evaluationOwed
  split
  · rename_i meets
    exact .of_move (.evaluates turn meets)
  · exact .refl

theorem State.moves_boundaryOwed (turn : LineTurn) : s.Moves (s.boundaryOwed turn) := by
  unfold boundaryOwed boundary
  split
  · rename_i meets
    exact (Moves.of_move (.evaluates turn meets)).trans (moves_takeHandedVerdict _)
  · exact .refl

theorem State.moves_foundOwed : s.Moves s.foundOwed := by
  unfold foundOwed
  split
  · rename_i expired
    exact .of_move (.founds expired)
  · exact .refl

/-! ### The commands -/

/-- A response ends the command (R172). -/
theorem State.Steady.answer (c : Command) (code : RespCode) (data : List Byte) : s.Steady (s.answer c code data) :=
  withPort s rfl nofun

theorem State.moves_guarded {own : State → State} (c : Command) (allowed : c.allowedIn s.member.state = true → s.Moves (own s)) :
    s.Moves (s.guarded c own) := by
  unfold guarded
  split
  · rename_i h
    exact allowed h
  · exact (Steady.answer s _ _ _).moves

theorem State.Steady.sendCommand (c : Command) (p : Payload) : s.Steady (s.sendCommand c p) := (enqueue s _).trans (answer _ _ _ _)

theorem State.moves_runConfigure (block : List Byte) : s.Moves (s.runConfigure block) := by
  refine s.moves_guarded _ fun allowed => ?_
  have idle : s.member.state = .unconfigured ∨ s.member.state = .ready := by simpa [Command.allowedIn] using allowed
  split
  · exact (Steady.answer s _ _ _).moves
  · rename_i c judged
    exact (Moves.of_move (.configures c (inRange_of_configOf judged) idle)).trans (Steady.answer _ _ _ _).moves

theorem State.moves_runStart : s.Moves s.runStart := by
  refine s.moves_guarded _ fun allowed => ?_
  have idle : s.member.state = .ready ∨ s.member.state = .stopped := by simpa [Command.allowedIn] using allowed
  refine .trans ?_ (Steady.answer _ _ _ _).moves
  split
  · rename_i c ready held
    exact Moves.of_move (.starts c held ready)
  · rename_i other
    refine Moves.of_move (.restarts (idle.symm.imp_right fun ready => ⟨ready, ?_⟩))
    cases held : s.port.block with
    | none => rfl
    | some c => exact absurd held (other c ready)

theorem State.moves_runStop : s.Moves s.runStop := by
  refine s.moves_guarded _ fun _ => ?_
  exact (s.moves_enterStopped .stop).trans (Steady.answer _ _ _ _).moves

theorem State.Steady.guarded {own : State → State} (c : Command) (same : s.Steady (own s)) : s.Steady (s.guarded c own) := by
  unfold State.guarded
  split
  · exact same
  · exact answer s _ _ _

theorem State.Steady.runNop : s.Steady s.runNop := by
  unfold State.runNop
  exact guarded s _ (answer s _ _ _)

theorem State.Steady.runStatus : s.Steady s.runStatus := by
  unfold State.runStatus
  exact guarded s _ (answer s _ _ _)

theorem State.Steady.runReadPeers : s.Steady s.runReadPeers := by
  unfold State.runReadPeers
  exact guarded s _ (answer s _ _ _)

theorem State.Steady.runSnapshot : s.Steady s.runSnapshot := by
  unfold State.runSnapshot
  exact guarded s _ ((enterLog s _).trans (answer _ _ _ _))

theorem State.Steady.runPost (scope : Byte) (f : ActionFields) : s.Steady (s.runPost scope f) := by
  unfold State.runPost
  refine guarded s _ ?_
  split
  · exact answer s _ _ _
  split
  · exact answer s _ _ _
  split
  · exact (insert s _).trans (answer _ _ _ _)
  · exact sendCommand s _ _

theorem State.Steady.runAmend (scope : Byte) (selector serial : Half) (new : Repeat) :
    s.Steady (s.runAmend scope selector serial new) := by
  unfold State.runAmend
  refine guarded s _ ?_
  split
  · exact answer s _ _ _
  split
  · exact (amendEntry s _ _).trans (answer _ _ _ _)
  · exact sendCommand s _ _

theorem State.Steady.runCancel (scope : Byte) (selector serial : Half) : s.Steady (s.runCancel scope selector serial) := by
  unfold State.runCancel
  refine guarded s _ ?_
  split
  · exact answer s _ _ _
  split
  · exact (cancelEntry s _).trans (answer _ _ _ _)
  · exact sendCommand s _ _

theorem State.Steady.runFind (origin : Byte) (serial : Half) : s.Steady (s.runFind origin serial) := by
  unfold State.runFind
  refine guarded s _ ?_
  split
  · exact answer s _ _ _
  dsimp only
  split <;> exact answer s _ _ _

theorem State.Steady.runReadLog (count : Byte) : s.Steady (s.runReadLog count) := by
  unfold State.runReadLog
  refine guarded s _ ?_
  split
  · exact answer s _ _ _
  · exact ((withCap s).trans (refreshAttn _)).trans (answer _ _ _ _)

theorem State.Steady.runReadReports (count : Byte) : s.Steady (s.runReadReports count) := by
  unfold State.runReadReports
  refine guarded s _ ?_
  split
  · exact answer s _ _ _
  · exact ((withPort s).trans (refreshAttn _)).trans (answer _ _ _ _)

theorem State.Steady.runDrive (line kind : Byte) : s.Steady (s.runDrive line kind) := by
  unfold State.runDrive
  refine guarded s _ ?_
  split
  · exact answer s _ _ _
  split
  · exact answer s _ _ _
  · exact (withOut s _).trans (answer _ _ _ _)

/-- Of the commands CONFIGURE, START and STOP change the station state (R173). -/
theorem State.moves_run (c : Command) : s.Moves (s.run c) := by
  cases c with
  | configure block => exact s.moves_runConfigure block
  | start => exact s.moves_runStart
  | stop => exact s.moves_runStop
  | nop => exact (Steady.runNop s).moves
  | status => exact (Steady.runStatus s).moves
  | readPeers => exact (Steady.runReadPeers s).moves
  | snapshot => exact (Steady.runSnapshot s).moves
  | post scope fields => exact (Steady.runPost s _ _).moves
  | amend scope selector serial new => exact (Steady.runAmend s _ _ _ _).moves
  | cancel scope selector serial => exact (Steady.runCancel s _ _ _).moves
  | find origin serial => exact (Steady.runFind s _ _).moves
  | readLog count => exact (Steady.runReadLog s _).moves
  | readReports count => exact (Steady.runReadReports s _).moves
  | drive line kind => exact (Steady.runDrive s _ _).moves

theorem State.moves_runDue : s.Moves s.runDue := by
  unfold runDue
  split
  · split
    · exact s.moves_run _
    · exact .refl
  · exact .refl
  · exact .refl

/-- What is left of the last tick is taken by moves (log 1). -/
theorem State.moves_settle : s.Moves s.settle := by
  have handedOn := ((Steady.insertHandedOver s).trans (Steady.takeAllHandedOn _)).moves.trans (moves_takeHandedVerdict _)
  unfold settle
  dsimp only
  generalize List.finRange 8 = each
  have pulses := handedOn.trans (Steady.foldl Steady.endPulse each _).moves
  have boundary := (pulses.trans (Steady.fireOwed _).moves).trans (moves_boundaryOwed _ .first)
  have edges := boundary.trans (Steady.foldl (fun u i => Steady.qualify u true i) each _).moves
  exact (edges.trans (moves_foundOwed _)).trans (moves_runDue _)

end

end Sys2Proof.Machine
end

section
/-! PROOFS. The rows of the cluster line and of the service port as chains of moves, and so every row but TICK and HARDWARE_RESET. -/

namespace Sys2Proof.Machine

/-! ### Reception -/

section

variable (s : State)

theorem State.moves_takeBeacon (sender : Station) (time : Time) (body : BeaconBody) (sof : Option SofRecord) :
    s.Moves (s.takeBeacon sender time body sof) := by
  have recorded : s.Moves (s.recordBeacon sender time body sof) := by
    unfold recordBeacon
    split
    · exact .refl
    · exact (Steady.withSync s _).moves
  unfold takeBeacon
  split
  · rename_i listening
    split
    · exact .of_move (.adopts time sof listening)
    · exact .refl
  · exact recorded
  · exact recorded
  all_goals exact .refl

theorem State.Steady.takeRemote (atOnce : Bool) (sender : Station) (p : Payload) : s.Steady (s.takeRemote atOnce sender p) := by
  unfold State.takeRemote
  split
  · dsimp only
    split
    · exact (withOwed s).trans (takeAllHandedOn _)
    · exact withOwed s
  · exact refl s

/-- Of the frames of other stations a beacon alone moves the station, in LISTEN (R81); the own number stops it (R88). -/
theorem State.moves_handOn (atOnce : Bool) (f : Frame) (sof : Option SofRecord) : s.Moves (s.handOn atOnce f sof) := by
  unfold handOn
  split
  · exact s.moves_enterStopped _
  split
  · exact s.moves_takeBeacon _ _ _ _
  · exact (Steady.takeRemote s _ _ _).moves
  · exact (Steady.takeRemote s _ _ _).moves
  · exact (Steady.takeRemote s _ _ _).moves
  · unfold takeEvent
    split
    · exact (Steady.enterLog s _).moves
    · exact .refl
  · unfold takeRefuse
    split
    · exact (Steady.report s _).moves
    · exact .refl

theorem State.moves_receive (atOnce : Bool) (f : PartialFrame) (samples : List Bool) : s.Moves (s.receive atOnce f samples) := by
  unfold receive
  dsimp only
  split
  · exact ((Steady.withLine s _).trans (Steady.withLine _ _)).moves
  · exact ((Steady.withLine s _).trans (Steady.withLine _ _)).moves
  · exact ((Steady.withLine s _).trans (Steady.withLine _ _)).moves
  · exact ((Steady.withLine s _).trans (Steady.withLine _ _)).moves.trans (moves_handOn _ _ _ _)

theorem State.moves_complete (atOnce : Bool) (samples : List Bool) : s.Moves (s.complete atOnce samples) := by
  unfold complete
  split
  · exact s.moves_receive _ _ _
  · exact .refl

/-! ### The own frame -/

theorem State.Steady.removeTransmitted : s.Steady s.removeTransmitted := withCont s _

theorem State.Steady.selfDeliver (p : Payload) : s.Steady (s.selfDeliver p) := by
  have claimed := applyClaim s s.number .selfDelivery p
  unfold State.selfDeliver
  split
  · split <;> rename_i answer <;> rw [answer] at claimed
    · exact claimed
    · exact claimed.trans (report _ _)
  · exact refl s

theorem State.Steady.transmissionSucceeded : s.Steady s.transmissionSucceeded := by
  unfold State.transmissionSucceeded
  split
  · exact refl s
  · dsimp only
    split
    · exact removeTransmitted s
    · exact (removeTransmitted s).trans (selfDeliver _ _)

theorem State.Steady.transmissionFailed : s.Steady s.transmissionFailed := by
  unfold State.transmissionFailed
  split
  · exact refl s
  split
  · exact removeTransmitted s
  split
  · exact (removeTransmitted s).trans (report _ _)
  · exact withCont s _

theorem State.moves_afterMismatch (bit : Nat) : s.Moves (s.afterMismatch bit) := by
  unfold afterMismatch
  dsimp only
  split
  · exact (Steady.withLine s _).moves
  · exact (Steady.withLine s _).moves
  · exact (Steady.withLine s _).moves.trans (moves_receive _ _ _ _)

theorem State.Steady.stick : s.Steady s.stick := by
  have stuck := fun l => (withLine s l).trans (withCont (s.withLine l) s.cont.silent)
  unfold State.stick
  dsimp only
  split
  · exact stuck _
  · exact (stuck _).trans (report _ _)

theorem State.Steady.startFrame (place : Nat) : s.Steady (s.startFrame place) := by
  unfold State.startFrame
  split
  · exact refl s
  · exact (withCont s _).trans (withLine _ _)

end

/-! ### The rows -/

section

variable (s : State)

theorem lineIdle_moves : LeadsTo s.Moves (execLineIdle s) := by
  unfold execLineIdle
  split
  · exact .next ((State.Steady.withLine s _).trans (State.Steady.withCont _ _)).moves
  · exact .next .refl

theorem idleSlot_moves : LeadsTo s.Moves (execIdleSlot s) := by
  have begun : s.Steady s.beginSlot := (State.Steady.withCont s _).trans (State.Steady.withLine _ _)
  unfold execIdleSlot
  split
  · dsimp only
    split
    · exact .next begun.moves
    split
    · exact .next (begun.trans (State.Steady.startFrame _ _)).moves
    · exact .next begun.moves
  · exact .next .refl

theorem startOfFrame_moves : LeadsTo s.Moves (execStartOfFrame s) := by
  unfold execStartOfFrame
  split
  · exact .next ((State.Steady.withLine s _).trans (State.Steady.withCont _ _)).moves
  · exact .next .refl

theorem rejectedStartEdge_moves : LeadsTo s.Moves (execRejectedStartEdge s) := by
  unfold execRejectedStartEdge
  cases s.line.receiver with
  | off | send | stuck => exact .next .refl
  | seek => exact .next (State.Steady.withLine s _).moves
  | wait => exact .next ((State.Steady.withLine s _).trans (State.Steady.withCont _ _)).moves
  | receive =>
    dsimp only
    split
    · exact .next (State.Steady.withLine s _).moves
    split
    · exact .next (State.Steady.withLine s _).moves
    · exact .next .refl

theorem frameTruncated_moves : LeadsTo s.Moves (execFrameTruncated s) := by
  unfold execFrameTruncated
  split
  · split
    · exact .next ((State.Steady.withLine s _).trans (State.Steady.withLine _ _)).moves
    · exact .next .refl
  · exact .next .refl

theorem frameCompletion_moves (event : FrameEvent) : LeadsTo s.Moves (execFrameCompletion event s) := by
  cases event with
  | whole samples => exact .next (s.moves_complete true samples)
  | handOver samples => exact .next (s.moves_complete false samples)
  | next => exact .next (State.Steady.takeHandedOn s).moves

theorem transmissionSuccess_moves : LeadsTo s.Moves (execTransmissionSuccess s) := by
  unfold execTransmissionSuccess
  split
  · exact .next ((State.Steady.withLine s _).trans (State.Steady.transmissionSucceeded _)).moves
  · exact .next .refl

theorem readbackMismatch_moves (bit : Nat) : LeadsTo s.Moves (execReadbackMismatch bit s) := by
  unfold execReadbackMismatch
  split
  · exact .next ((State.Steady.transmissionFailed s).moves.trans (State.moves_afterMismatch _ bit))
  · exact .next .refl

theorem lineStuck_moves : LeadsTo s.Moves (execLineStuck s) := by
  have failed := State.Steady.transmissionFailed s
  unfold execLineStuck
  cases s.line.receiver with
  | off | stuck => exact .next .refl
  | seek | wait | receive => exact .next (State.Steady.stick s).moves
  | send =>
    cases s.line.afterSend with
    | off => exact .next (failed.trans (State.Steady.withLine _ _)).moves
    | inStep | seek => exact .next (failed.trans (State.Steady.stick _)).moves

theorem stuckRunEnd_moves : LeadsTo s.Moves (execStuckRunEnd s) := by
  unfold execStuckRunEnd
  split
  · exact .next (State.Steady.withLine s _).moves
  · exact .next .refl

theorem lineReleased_moves : LeadsTo s.Moves (execLineReleased s) := by
  unfold execLineReleased
  split
  · exact .next ((State.Steady.withLine s _).trans (State.Steady.report _ _)).moves
  · exact .next .refl

theorem transactionBegin_moves : LeadsTo s.Moves (execTransactionBegin s) := by
  unfold execTransactionBegin State.beginTransaction
  split
  · split
    · exact .next (State.Steady.withPort s).moves
    · exact .next (State.Steady.withPort s).moves
  · exact .next .refl

/-- A command taken as SEL rises has waited no tick (R171). -/
theorem transactionEnd_moves (bits cut : List Bool) : LeadsTo s.Moves (execTransactionEnd bits cut s) := by
  unfold execTransactionEnd State.endTransaction
  split
  · exact .next .refl
  split
  · exact .next (State.Steady.withPort s).moves
  split
  · exact .next (State.Steady.moves (.withPort s rfl nofun))
  · exact .next (State.Steady.moves (.withPort s rfl fun n held => .inr (Option.some.inj held).symm))

/-- A row of a command executes nothing, or a command (R172). -/
theorem row_moves (c : Command) : LeadsTo s.Moves (exec c.row s) := by
  rcases exec_row_cases s c with same | ⟨d, runs⟩
  · rw [same]
    exact .next .refl
  · rw [runs]
    exact .next (s.moves_run d)

/-- Every row but TICK and HARDWARE_RESET is a chain of moves. A row of a command runs the command that the port holds, so that the
parameters named here are of no account. -/
theorem exec_moves (i : Instr) (noTick : ∀ levels, i ≠ .tick levels) (noReset : i ≠ .hardwareReset) :
    LeadsTo s.Moves (exec i s) := by
  cases i with
  | hardwareReset => exact absurd rfl noReset
  | tick levels => exact absurd rfl (noTick levels)
  | roundBoundary event =>
    cases event with
    | whole turn => exact .next (s.moves_boundaryOwed turn)
    | evaluation turn => exact .next (s.moves_evaluationOwed turn)
    | verdict => exact .next s.moves_takeHandedVerdict
  | listenWindowExpiry => exact .next s.moves_foundOwed
  | firing => exact .next (State.Steady.fireOwed s).moves
  | pulseEnd line => exact .next (State.Steady.endPulse s line).moves
  | edgeQualified event =>
    cases event with
    | whole input => exact .next (State.Steady.qualify s true input).moves
    | handOver input => exact .next (State.Steady.qualify s false input).moves
    | insertion => exact .next (State.Steady.insertNext s).moves
  | lineIdle => exact lineIdle_moves s
  | idleSlot => exact idleSlot_moves s
  | startOfFrame => exact startOfFrame_moves s
  | frameTruncated => exact frameTruncated_moves s
  | frameCompletion event => exact frameCompletion_moves s event
  | transmissionSuccess => exact transmissionSuccess_moves s
  | readbackMismatch bit => exact readbackMismatch_moves s bit
  | lineStuck => exact lineStuck_moves s
  | lineReleased => exact lineReleased_moves s
  | transactionBegin => exact transactionBegin_moves s
  | transactionEnd bits cut => exact transactionEnd_moves s bits cut
  | stuckRunEnd => exact stuckRunEnd_moves s
  | rejectedStartEdge => exact rejectedStartEdge_moves s
  | nop => exact row_moves s .nop
  | status => exact row_moves s .status
  | configure => exact row_moves s (.configure [])
  | start => exact row_moves s .start
  | stop => exact row_moves s .stop
  | post => exact row_moves s (.post 0 (actionFieldsAt [] 0))
  | amend => exact row_moves s (.amend 0 0 0 ⟨0, 0⟩)
  | cancel => exact row_moves s (.cancel 0 0 0)
  | find => exact row_moves s (.find 0 0)
  | readLog => exact row_moves s (.readLog 0)
  | readReports => exact row_moves s (.readReports 0)
  | readPeers => exact row_moves s .readPeers
  | snapshot => exact row_moves s .snapshot
  | drive => exact row_moves s (.drive 0 0)

end

end Sys2Proof.Machine
end

section
/-! PROOFS. What every move keeps: the local tick count (R36), what the station state fixes of the other blocks (R37, R45, R77, R116,
R149), and the wait of a command (R172). -/

namespace Sys2Proof.Machine

/-! ### The conditions of the moves, and the way into STOPPED -/

theorem State.listening_of_windowExpired {s : State} (expired : s.windowExpired = true) : s.member.state = .listen := by
  unfold windowExpired at expired
  exact of_decide_eq_true (Bool.and_eq_true_iff.1 expired).1

theorem State.timed_of_meetsBoundary {s : State} (meets : s.meetsBoundary = true) :
    s.owed.boundary = true ∧ (s.member.state = .joining ∨ s.member.state = .member) := by
  simpa [meetsBoundary] using meets

/-- The clock of a station that enters STOPPED (R37, R89). -/
theorem State.clock_enterStopped {s : State} (cause : Cause) (active : s.active = true) :
    (s.enterStopped cause).clock = { s.clock with listen := none } ∧ s.member.state = .listen
    ∨ (s.enterStopped cause).clock = { ticks := s.clock.ticks, cluster := none, slew := 0, spacing := 0, listen := none } := by
  rcases active_cases active with h | ⟨_, h⟩
  · rw [enterStopped_of_listen cause h]
    exact .inl ⟨rfl, h⟩
  · rw [enterStopped_of_timed cause h]
    obtain ⟨_, clock, _⟩ := s.teardownToStopped_blocks cause
    exact .inr clock

/-- The action queue of a station that enters STOPPED (R89, R91). -/
theorem State.sched_enterStopped {s : State} (cause : Cause) (active : s.active = true) :
    (s.enterStopped cause).sched = s.sched ∧ s.member.state = .listen
    ∨ (s.enterStopped cause).sched = { s.sched with queue := [] } := by
  rcases active_cases active with h | ⟨_, h⟩
  · rw [enterStopped_of_listen cause h]
    exact .inl ⟨rfl, h⟩
  · rw [enterStopped_of_timed cause h]
    obtain ⟨_, _, _, _, _, sched, _⟩ := s.teardownToStopped_blocks cause
    exact .inr sched

namespace State.Move

section

variable {s t : State}

/-- No move changes the local tick count (R36). -/
theorem ticks (move : s.Move t) : t.clock.ticks = s.clock.ticks := by
  cases move with
  | steady same => rw [same.clock]
  | evaluates turn meets => exact s.ticks_evaluation turn
  | leaves cause timed =>
    obtain ⟨_, clock, _⟩ := s.teardownToListen_blocks cause
    rw [clock]
  | stops cause active =>
    obtain ⟨_, _, _, _, _, same, _⟩ := enterStopped_stops (s := s) cause active
    exact same
  | founds | adopts | joins | configures | starts | restarts => rfl

/-- A command that a move leaves has not waited longer, or has just been taken (R172). -/
theorem waited (move : s.Move t) : ∀ n ∈ t.waited, n ∈ s.waited ∨ n = 0 := by
  have kept (work : t.port.work = s.port.work) : ∀ n ∈ t.waited, n ∈ s.waited ∨ n = 0 := fun _ held =>
    .inl (waited_congr work ▸ held)
  cases move with
  | steady same => exact same.waited
  | evaluates turn meets => exact kept (s.work_evaluation turn)
  | leaves cause timed => exact kept (s.work_teardownToListen cause)
  | stops cause active => exact kept (s.work_enterStopped cause)
  | founds | adopts | joins | configures | starts | restarts => exact kept rfl

theorem waitOk (move : s.Move t) (ok : s.WaitOk) : t.WaitOk := fun n held =>
  (move.waited n held).elim (ok n) fun new => new ▸ Nat.zero_le _

end

end State.Move

/-! ### What the station state fixes -/

namespace State

section

variable {s t : State}

theorem PhaseOk.steady (phase : s.PhaseOk) (same : s.Steady t) : t.PhaseOk := by
  obtain ⟨timed, listens, filters, queue, block, cfg, number, boundary, firing⟩ := phase
  refine ⟨?_, ?_, ?_, ?_, ?_, ?_, ?_, ?_, ?_⟩
  · rw [same.clock, same.state]; exact timed
  · rw [same.clock, same.state]; exact listens
  · rw [same.filters, same.active]; exact filters
  · intro other
    rw [same.state] at other
    rw [same.queue other, queue other]
  · rw [same.state, same.block]; exact block
  · rw [same.cfg, same.active, same.state]; exact cfg
  · rw [same.number, same.cfg]; exact number
  · rw [same.boundary, same.clock]; exact boundary
  · intro owes
    rw [same.state]
    rcases same.fireFrom with kept | taken
    · exact firing (kept ▸ owes)
    · simp [taken] at owes

theorem ConfigOk.of_blocks (config : s.ConfigOk) (block : t.port.block = s.port.block) (cfg : t.cfg = s.cfg) : t.ConfigOk := by
  rw [ConfigOk, block, cfg]
  exact config

/-! What the station state fixes, state by state. -/

theorem phaseOk_iff_of_idle (idle : s.member.state = .unconfigured ∨ s.member.state = .ready) :
    s.PhaseOk ↔ s.clock.cluster = none ∧ s.clock.listen = none ∧ s.cap.filters = none ∧ s.sched.queue = []
      ∧ (s.member.state = .ready → s.port.block.isSome = true) ∧ s.cfg = none ∧ s.member.number = none
      ∧ s.owed.boundary = false ∧ s.owed.fireFrom = none := by
  rcases idle with h | h <;> simp +contextual [PhaseOk, active, h]

theorem phaseOk_iff_of_listen (h : s.member.state = .listen) :
    s.PhaseOk ↔ s.clock.cluster = none ∧ s.clock.listen.isSome = true ∧ s.cap.filters.isSome = true ∧ s.sched.queue = []
      ∧ s.cfg.isSome = true ∧ s.member.number = s.cfg.map (·.number) ∧ s.owed.boundary = false ∧ s.owed.fireFrom = none := by
  simp +contextual [PhaseOk, active, h]

theorem phaseOk_iff_of_joining (h : s.member.state = .joining) :
    s.PhaseOk ↔ s.clock.cluster.isSome = true ∧ s.clock.listen = none ∧ s.cap.filters.isSome = true ∧ s.sched.queue = []
      ∧ s.cfg.isSome = true ∧ s.member.number = s.cfg.map (·.number) ∧ s.owed.fireFrom = none := by
  simp +contextual [PhaseOk, active, h]

theorem phaseOk_iff_of_member (h : s.member.state = .member) :
    s.PhaseOk ↔ s.clock.cluster.isSome = true ∧ s.clock.listen = none ∧ s.cap.filters.isSome = true
      ∧ s.cfg.isSome = true ∧ s.member.number = s.cfg.map (·.number) := by
  simp +contextual [PhaseOk, active, h]

theorem phaseOk_iff_of_stopped (h : s.member.state = .stopped) :
    s.PhaseOk ↔ s.clock.cluster = none ∧ s.clock.listen = none ∧ s.cap.filters = none ∧ s.sched.queue = []
      ∧ s.cfg.isSome = true ∧ s.member.number = s.cfg.map (·.number) ∧ s.owed.boundary = false ∧ s.owed.fireFrom = none := by
  simp +contextual [PhaseOk, active, h]

/-- A station that uses the line has its fields and its number. -/
theorem PhaseOk.taken (phase : s.PhaseOk) (active : s.active = true) : s.cfg.isSome = true ∧ s.member.number = s.cfg.map (·.number) := by
  obtain ⟨_, _, _, _, _, cfg, number, _⟩ := phase
  exact ⟨cfg.2 (.inl active), number⟩

/-- Cluster time is valid in JOINING and MEMBER (R37). -/
theorem PhaseOk.valid_iff (phase : s.PhaseOk) : s.valid = true ↔ s.member.state = .joining ∨ s.member.state = .member := by
  obtain ⟨timed, _⟩ := phase
  exact timed

theorem active_of_timed (timed : s.member.state = .joining ∨ s.member.state = .member) : s.active = true := by
  unfold active
  rcases timed with h | h <;> rw [h]

/-- A station that has entered STOPPED has neither cluster time nor an action queue (R37, R116). -/
theorem enterStopped_empties (cause : Cause) (active : s.active = true) (phase : s.PhaseOk) :
    (s.enterStopped cause).clock.cluster = none ∧ (s.enterStopped cause).sched = { s.sched with queue := [] } := by
  constructor
  · rcases clock_enterStopped cause active with ⟨clock, listening⟩ | clock
    · rw [clock]
      exact ((phaseOk_iff_of_listen listening).1 phase).1
    · rw [clock]
  · rcases sched_enterStopped cause active with ⟨sched, listening⟩ | sched
    · obtain ⟨_, _, _, queue, _⟩ := (phaseOk_iff_of_listen listening).1 phase
      rw [sched, ← queue]
    · exact sched

/-- Every move keeps what the station state fixes. -/
theorem Move.phaseOk (move : s.Move t) (phase : s.PhaseOk) : t.PhaseOk := by
  cases move with
  | steady same => exact phase.steady same
  | evaluates turn meets =>
    obtain ⟨_, joining | member⟩ := timed_of_meetsBoundary meets
    · rw [phaseOk_iff_of_joining joining] at phase
      rw [phaseOk_iff_of_joining (by simpa using joining)]
      simpa using phase
    · rw [phaseOk_iff_of_member member] at phase
      rw [phaseOk_iff_of_member (by simpa using member)]
      simpa using phase
  | founds expired =>
    rw [phaseOk_iff_of_listen (listening_of_windowExpired expired)] at phase
    obtain ⟨_, _, filters, _, cfg, number, _⟩ := phase
    exact (phaseOk_iff_of_member rfl).2 ⟨rfl, rfl, filters, cfg, number⟩
  | adopts time sof listening =>
    rw [phaseOk_iff_of_listen listening] at phase
    obtain ⟨_, _, filters, queue, cfg, number, _, firing⟩ := phase
    exact (phaseOk_iff_of_joining rfl).2 ⟨rfl, rfl, filters, queue, cfg, number, firing⟩
  | joins joining =>
    rw [phaseOk_iff_of_joining joining] at phase
    obtain ⟨cluster, listen, filters, _, cfg, number, _⟩ := phase
    exact (phaseOk_iff_of_member rfl).2 ⟨cluster, listen, filters, cfg, number⟩
  | leaves cause timed =>
    obtain ⟨member, clock, _, _, _, sched, _, cap, owed, _⟩ := s.teardownToListen_blocks cause
    rw [phaseOk_iff_of_listen (by rw [member]), member, clock, cap, sched, owed, cfg_teardownToListen]
    obtain ⟨cfg, number⟩ := phase.taken (active_of_timed timed)
    exact ⟨rfl, rfl, rfl, rfl, cfg, number, rfl, rfl⟩
  | stops cause active =>
    obtain ⟨member, _, _, cap, listen, _, _, owed⟩ := enterStopped_stops (s := s) cause active
    obtain ⟨cluster, sched⟩ := enterStopped_empties cause active phase
    rw [phaseOk_iff_of_stopped (by rw [member]), member, cap, listen, owed, cfg_enterStopped]
    obtain ⟨cfg, number⟩ := phase.taken active
    exact ⟨cluster, rfl, rfl, by rw [sched], cfg, number, rfl, rfl⟩
  | configures c inRange idle =>
    obtain ⟨cluster, listen, filters, queue, _, rest⟩ := (phaseOk_iff_of_idle idle).1 phase
    exact (phaseOk_iff_of_idle (.inr rfl)).2 ⟨cluster, listen, filters, queue, fun _ => rfl, rest⟩
  | starts c held ready =>
    obtain ⟨_, _, _, queue, _⟩ := (phaseOk_iff_of_idle (.inr ready)).1 phase
    exact (phaseOk_iff_of_listen rfl).2 ⟨rfl, rfl, rfl, queue, rfl, rfl, rfl, rfl⟩
  | restarts idle =>
    rcases idle with stopped | ⟨ready, none⟩
    · obtain ⟨_, _, _, queue, cfg, number, _⟩ := (phaseOk_iff_of_stopped stopped).1 phase
      exact (phaseOk_iff_of_listen rfl).2 ⟨rfl, rfl, rfl, queue, cfg, number, rfl, rfl⟩
    · obtain ⟨_, _, _, _, held, _⟩ := (phaseOk_iff_of_idle (.inr ready)).1 phase
      simp [none] at held
      exact absurd ready held

/-- Every move keeps the configuration in range: CONFIGURE judges the block (R178), and START takes the one held (R77). -/
theorem Move.configOk (move : s.Move t) (config : s.ConfigOk) : t.ConfigOk := by
  cases move with
  | steady same => exact config.of_blocks same.block same.cfg
  | evaluates turn meets => exact config.of_blocks (s.block_evaluation turn) (s.cfg_evaluation turn)
  | leaves cause timed => exact config.of_blocks (s.block_teardownToListen cause) (s.cfg_teardownToListen cause)
  | stops cause active => exact config.of_blocks (s.block_enterStopped cause) (s.cfg_enterStopped cause)
  | founds | adopts | joins | restarts => exact config
  | configures c inRange idle => exact ⟨inRange, config.2⟩
  | starts c held ready =>
    obtain ⟨block, _⟩ := config
    rw [held] at block
    exact ⟨held ▸ block, block⟩

end

/-! ### The tick -/

section

variable (s : State) (levels : BitVec 8)

/-- With no cluster time a tick counts, samples the inputs and serves the port (R36, R45). -/
theorem tickNow_of_untimed (untimed : s.clock.cluster = none) : s.tickNow levels = (s.tickClock.tickInputs levels).tickPort := by
  simp [tickNow, untimed]

theorem tickNow_of_timed {c : Time} (timed : s.clock.cluster = some c) :
    s.tickNow levels = (((s.tickClock.tickRound c).tickMember c).tickInputs levels).tickPort := by
  simp [tickNow, timed]

/-- The blocks in which a tick has no part. -/
theorem tickNow_frame : (s.tickNow levels).member = s.member ∧ (s.tickNow levels).line = s.line ∧ (s.tickNow levels).cont = s.cont
    ∧ (s.tickNow levels).sync = s.sync ∧ (s.tickNow levels).sched = s.sched ∧ (s.tickNow levels).exch = s.exch
    ∧ (s.tickNow levels).cfg = s.cfg := by
  cases h : s.clock.cluster with
  | none => simp [s.tickNow_of_untimed levels h]
  | some c => simp [s.tickNow_of_timed levels h]

@[simp] theorem clock_tickNow : (s.tickNow levels).clock = s.tickClock.clock := by
  cases h : s.clock.cluster with
  | none => simp [s.tickNow_of_untimed levels h]
  | some c => simp [s.tickNow_of_timed levels h]

theorem owed_tickNow_of_untimed (untimed : s.clock.cluster = none) : (s.tickNow levels).owed = s.owed := by
  simp [s.tickNow_of_untimed levels untimed]

/-- What a tick owes: the boundary of a changed round (R42), and the firing of the entries that it reached, in MEMBER (R104). -/
theorem owed_tickNow_of_timed {c : Time} (timed : s.clock.cluster = some c) : (s.tickNow levels).owed = { s.owed with
    boundary := roundOf s.config.k c ≠ roundOf s.config.k s.tickClock.now
    fireFrom := if s.member.state = .member then (if s.tickClock.now = c then none else some c) else s.owed.fireFrom } := by
  rw [s.tickNow_of_timed levels timed, owed_tickPort, owed_tickInputs]
  unfold tickMember
  by_cases member : s.member.state = .member
  · rw [if_pos member, if_pos (by exact member)]
    rfl
  · rw [if_neg member, if_neg (by exact member)]
    rfl

theorem block_tickPort : s.tickPort.port.block = s.port.block := by
  unfold tickPort
  split <;> rfl

theorem block_tickNow : (s.tickNow levels).port.block = s.port.block := by
  cases h : s.clock.cluster with
  | none => simp [s.tickNow_of_untimed levels h, block_tickPort]
  | some c => simp [s.tickNow_of_timed levels h, block_tickPort]

/-- A tick samples the inputs where the filters run (R149). -/
theorem filters_tickNow : (s.tickNow levels).cap.filters.isSome = s.cap.filters.isSome := by
  have sampled (u : State) : (u.tickInputs levels).cap.filters.isSome = u.cap.filters.isSome := Option.isSome_map
  cases h : s.clock.cluster with
  | none => simp [s.tickNow_of_untimed levels h, sampled]
  | some c => simp [s.tickNow_of_timed levels h, sampled]

/-- A command held ages by a tick (R172). -/
theorem waited_tickNow : (s.tickNow levels).waited = s.waited.map (· + 1) := by
  have ages (u : State) (work : u.port.work = s.port.work) : u.tickPort.waited = s.waited.map (· + 1) := by
    unfold tickPort waited
    rw [← work]
    cases h : u.port.work <;> simp [h, respond]
  cases h : s.clock.cluster with
  | none =>
    rw [s.tickNow_of_untimed levels h]
    exact ages _ rfl
  | some c =>
    rw [s.tickNow_of_timed levels h]
    exact ages _ (by simp)

end

section

variable (s : State)

/-- What every tick counts, with cluster time and without (R36, R45). -/
def counted : ClockUnit := { s.clock with ticks := s.clock.ticks + 1, listen := s.clock.listen.map (· + 1) }

/-- The next tick of a valid clock is an adjustment tick (R40). -/
def Adjusts : Prop := s.clock.slew ≠ 0 ∧ s.clock.spacing + 1 = s.spacingUnit

theorem adjusts_iff : (s.clock.slew ≠ 0 && s.clock.spacing + 1 = s.spacingUnit) = true ↔ s.Adjusts := by
  simp only [Bool.and_eq_true, decide_eq_true_eq]
  rfl

/-- The three ticks of a valid clock (R39, R40). -/
theorem tick_cases : ¬ s.Adjusts ∨ (s.Adjusts ∧ 0 < s.clock.slew) ∨ (s.Adjusts ∧ s.clock.slew < 0) := by
  by_cases adjusts : s.Adjusts
  · exact .inr ((lt_or_gt_of_ne adjusts.1).symm.imp (⟨adjusts, ·⟩) (⟨adjusts, ·⟩))
  · exact .inl adjusts

theorem clock_tickClock_of_untimed (untimed : s.clock.cluster = none) : s.tickClock.clock = s.counted := by
  simp [tickClock, untimed, counted]

section

variable {s : State} {c : Time} (timed : s.clock.cluster = some c)

include timed

theorem clock_tickClock_of_timed : s.tickClock.clock = s.counted.advance s.spacingUnit c := by simp [tickClock, timed, counted]

/-- An ordinary tick (R39). -/
theorem clock_tickClock_of_ordinary (ordinary : ¬ s.Adjusts) : s.tickClock.clock =
    { s.counted with cluster := some (c + 1), spacing := (s.clock.spacing + 1) % s.spacingUnit } := by
  rw [clock_tickClock_of_timed timed]
  exact if_neg (s.adjusts_iff.not.2 ordinary)

theorem clock_tickClock_of_adjusts (adjusts : s.Adjusts) : s.tickClock.clock =
    if 0 < s.clock.slew then { s.counted with cluster := some (c + 2), slew := s.clock.slew - 1, spacing := 1 }
    else { s.counted with slew := s.clock.slew + 1, spacing := 0 } := by
  rw [clock_tickClock_of_timed timed]
  exact if_pos (s.adjusts_iff.2 adjusts)

/-- An adjustment tick of a clock that is behind (R40). -/
theorem clock_tickClock_of_behind (adjusts : s.Adjusts) (behind : 0 < s.clock.slew) : s.tickClock.clock =
    { s.counted with cluster := some (c + 2), slew := s.clock.slew - 1, spacing := 1 } := by
  rw [clock_tickClock_of_adjusts timed adjusts, if_pos behind]

/-- An adjustment tick of a clock that is ahead (R40). -/
theorem clock_tickClock_of_ahead (adjusts : s.Adjusts) (ahead : s.clock.slew < 0) : s.tickClock.clock =
    { s.counted with cluster := some c, slew := s.clock.slew + 1, spacing := 0 } := by
  rw [clock_tickClock_of_adjusts timed adjusts, if_neg (by omega), ← timed]
  rfl

end

/-- Every tick counts, and neither makes cluster time valid nor ends it (R36, R37, R45). -/
theorem tickClock_counts : s.tickClock.clock.ticks = s.clock.ticks + 1 ∧ s.tickClock.clock.listen = s.clock.listen.map (· + 1)
    ∧ s.tickClock.clock.cluster.isSome = s.clock.cluster.isSome := by
  cases timed : s.clock.cluster with
  | none =>
    rw [s.clock_tickClock_of_untimed timed]
    exact ⟨rfl, rfl, congrArg Option.isSome timed⟩
  | some c =>
    rcases s.tick_cases with ordinary | ⟨adjusts, behind⟩ | ⟨adjusts, ahead⟩
    · rw [clock_tickClock_of_ordinary timed ordinary]
      exact ⟨rfl, rfl, rfl⟩
    · rw [clock_tickClock_of_behind timed adjusts behind]
      exact ⟨rfl, rfl, rfl⟩
    · rw [clock_tickClock_of_ahead timed adjusts ahead]
      exact ⟨rfl, rfl, rfl⟩

end

section

variable {s : State}

theorem PhaseOk.tickNow (phase : s.PhaseOk) (levels : BitVec 8) : (s.tickNow levels).PhaseOk := by
  obtain ⟨member, _, _, _, sched, _, cfg⟩ := s.tickNow_frame levels
  have active : (s.tickNow levels).active = s.active := by
    unfold State.active
    rw [member]
  obtain ⟨_, listen, valid⟩ := s.tickClock_counts
  unfold PhaseOk
  rw [member, sched, cfg, active, clock_tickNow, valid, listen, Option.isSome_map, filters_tickNow, block_tickNow]
  obtain ⟨timed, listens, filters, queue, block, taken, number, boundary, firing⟩ := phase
  refine ⟨timed, listens, filters, queue, block, taken, number, ?_⟩
  cases h : s.clock.cluster with
  | none =>
    rw [s.owed_tickNow_of_untimed levels h]
    exact ⟨fun owes => h ▸ boundary owes, firing⟩
  | some c =>
    rw [s.owed_tickNow_of_timed levels h]
    refine ⟨fun _ => rfl, fun owes => ?_⟩
    by_contra other
    rw [if_neg other] at owes
    exact other (firing owes)

theorem ConfigOk.tickNow (config : s.ConfigOk) (levels : BitVec 8) : (s.tickNow levels).ConfigOk := by
  obtain ⟨_, _, _, _, _, _, cfg⟩ := s.tickNow_frame levels
  exact config.of_blocks (s.block_tickNow levels) cfg

end

end State

end Sys2Proof.Machine
end

section
/-! PROOFS. The slew remainder from one round boundary to the next (R39–R42): the position of cluster time in its round, and the steps by
which a remainder is worked off before the round ends. -/

namespace Sys2Proof.Machine

/-! ### Positions in a round -/

section

variable {k d : Nat} {c : Time}

theorem roundOf_eq_iff (k : Nat) (a b : Time) : roundOf k a = roundOf k b ↔ a.toNat / 2 ^ k = b.toNat / 2 ^ k := by
  simp [roundOf, ← BitVec.toNat_inj, Nat.shiftRight_eq_div_pow]

/-- Time that goes on within its round. -/
theorem toNat_add_of_room (short : k ≤ 32) (room : c.toNat % 2 ^ k + d < 2 ^ k) : (c + BitVec.ofNat 32 d).toNat = c.toNat + d := by
  obtain ⟨rounds, whole⟩ : 2 ^ k ∣ 2 ^ 32 := Nat.pow_dvd_pow 2 short
  have bound : c.toNat / 2 ^ k < rounds := Nat.div_lt_of_lt_mul (whole ▸ c.isLt)
  have split := Nat.div_add_mod c.toNat (2 ^ k)
  have fits : c.toNat + d < 2 ^ 32 := by
    calc c.toNat + d < 2 ^ k * (c.toNat / 2 ^ k + 1) := by rw [Nat.mul_add]; omega
      _ ≤ 2 ^ k * rounds := Nat.mul_le_mul_left _ bound
      _ = 2 ^ 32 := whole.symm
  rw [BitVec.toNat_add, BitVec.toNat_ofNat, Nat.add_mod_mod, Nat.mod_eq_of_lt fits]

theorem position_add (short : k ≤ 32) (room : c.toNat % 2 ^ k + d < 2 ^ k) :
    (c + BitVec.ofNat 32 d).toNat % 2 ^ k = c.toNat % 2 ^ k + d := by
  rw [toNat_add_of_room short room, Nat.add_mod, Nat.mod_eq_of_lt (by omega : d < 2 ^ k), Nat.mod_eq_of_lt room]

theorem roundOf_add (short : k ≤ 32) (room : c.toNat % 2 ^ k + d < 2 ^ k) : roundOf k (c + BitVec.ofNat 32 d) = roundOf k c := by
  rw [roundOf_eq_iff, toNat_add_of_room short room]
  have split := Nat.div_add_mod c.toNat (2 ^ k)
  have : c.toNat + d = c.toNat % 2 ^ k + d + 2 ^ k * (c.toNat / 2 ^ k) := by omega
  rw [this, Nat.add_mul_div_left _ _ (Nat.two_pow_pos k), Nat.div_eq_of_lt room, Nat.zero_add]

/-- Time that enters a round by an advance of 1 is at its position 0 (R42). -/
theorem position_of_boundary (short : k ≤ 32) (changed : roundOf k c ≠ roundOf k (c + 1)) : (c + 1).toNat % 2 ^ k = 0 := by
  have last : c.toNat % 2 ^ k + 1 = 2 ^ k := by
    have := Nat.mod_lt c.toNat (Nat.two_pow_pos k)
    by_contra within
    exact changed (roundOf_add (d := 1) short (by omega)).symm
  have whole : 2 ^ k ∣ 2 ^ 32 := Nat.pow_dvd_pow 2 short
  have one : (1 : Time).toNat = 1 := rfl
  rw [BitVec.toNat_add, Nat.mod_mod_of_dvd _ whole, one, ← Nat.mod_add_mod, last]
  exact Nat.mod_self _

end

namespace State

/-! ### The slew remainder -/

section

variable {s t : State}

/-- A boundary owed, the clock and the round exponent decide; an operation that changes none of them changes nothing here. -/
theorem SlewOk.of_blocks (ok : s.SlewOk) (clock : t.clock = s.clock) (cfg : t.cfg = s.cfg)
    (boundary : t.owed.boundary = s.owed.boundary) : t.SlewOk := by
  simpa only [SlewOk, slewOnTrack, position, now, spacingUnit, config, clock, cfg, boundary] using ok

/-- With no remainder and no boundary owed nothing is left to be worked off. -/
theorem slewOk_of_zero (slew : s.clock.slew = 0) (boundary : s.owed.boundary = false) : s.SlewOk :=
  ⟨fun _ => ⟨slew, boundary⟩, fun left => absurd slew left, fun owed => absurd owed (by simp [boundary])⟩

theorem ConfigOk.exponent (config : s.ConfigOk) (taken : s.cfg.isSome = true) : 10 ≤ s.config.k ∧ s.config.k ≤ 20 := by
  obtain ⟨c, held⟩ := Option.isSome_iff_exists.1 taken
  obtain ⟨_, inRange⟩ := config
  rw [held] at inRange
  have inRange : c.inRange = true := inRange
  simp only [ConfigBlock.inRange, Bool.and_eq_true, decide_eq_true_eq] at inRange
  simp only [State.config, held, Option.getD_some]
  omega

/-- A round is 256 spacing units (R40). -/
theorem round_eq_units (least : 10 ≤ s.config.k) : 2 ^ s.config.k = 256 * s.spacingUnit ∧ 4 ≤ s.spacingUnit := by
  have split : s.config.k = 8 + (s.config.k - 8) := by omega
  constructor
  · conv_lhs => rw [split, Nat.pow_add]
    rfl
  · calc 4 = 2 ^ 2 := rfl
      _ ≤ 2 ^ (s.config.k - 8) := Nat.pow_le_pow_right (by decide) (by omega)

/-- The applied correction is at most the max step, a byte (R58). -/
theorem natAbs_appliedCorrection (maxStep : Byte) (raw : Int) : (appliedCorrection maxStep.toNat raw).natAbs ≤ 255 := by
  have := maxStep.isLt
  unfold appliedCorrection
  omega

/-- A boundary hands the clock its correction at position 0, with no adjustment made (R41). -/
theorem SlewOk.evaluation (ok : s.SlewOk) (phase : s.PhaseOk) (turn : LineTurn) (meets : s.meetsBoundary = true) :
    (s.evaluation turn).SlewOk := by
  obtain ⟨owed, timed⟩ := timed_of_meetsBoundary meets
  obtain ⟨_, _, boundary⟩ := ok
  obtain ⟨_, start⟩ := boundary owed
  have valid := phase.valid_iff.2 timed
  have clock := s.clock_evaluation turn valid
  have same : (s.evaluation turn).config = s.config := congrArg (·.getD ConfigBlock.blank) (s.cfg_evaluation turn)
  refine ⟨fun untimed => ?_, fun _ => ?_, fun owed => ?_⟩
  · rw [cluster_evaluation] at untimed
    simp [State.valid, untimed] at valid
  · have position : (s.evaluation turn).position = s.position := by simp only [State.position, now, same, cluster_evaluation]
    refine ⟨?_, 0, ?_, ?_⟩
    · rw [clock, spacingUnit]
      exact Nat.two_pow_pos _
    · rw [clock]
      simpa using natAbs_appliedCorrection _ _
    · rw [position, start, clock]
      simp
  · simp at owed

/-- Every move keeps the remainder on track. -/
theorem Move.slewOk (move : s.Move t) (phase : s.PhaseOk) (ok : s.SlewOk) : t.SlewOk := by
  cases move with
  | steady same => exact ok.of_blocks same.clock same.cfg same.boundary
  | evaluates turn meets => exact ok.evaluation phase turn meets
  | founds expired =>
    obtain ⟨_, _, _, _, _, _, boundary, _⟩ := (phaseOk_iff_of_listen (listening_of_windowExpired expired)).1 phase
    exact slewOk_of_zero rfl boundary
  | adopts time sof listening =>
    obtain ⟨_, _, _, _, _, _, boundary, _⟩ := (phaseOk_iff_of_listen listening).1 phase
    exact slewOk_of_zero rfl boundary
  | joins joining => exact ok.of_blocks rfl rfl rfl
  | leaves cause timed =>
    obtain ⟨_, clock, _, _, _, _, _, _, owed, _⟩ := s.teardownToListen_blocks cause
    exact slewOk_of_zero (by rw [clock]) (by rw [owed])
  | stops cause active =>
    obtain ⟨_, _, _, _, _, _, _, owed⟩ := enterStopped_stops (s := s) cause active
    refine slewOk_of_zero ?_ (by rw [owed])
    rcases clock_enterStopped cause active with ⟨clock, listening⟩ | clock
    · obtain ⟨untimed, _⟩ := (phaseOk_iff_of_listen listening).1 phase
      obtain ⟨zero, _⟩ := ok.1 untimed
      rw [clock, zero]
    · rw [clock]
  | configures => exact ok.of_blocks rfl rfl rfl
  | starts => exact slewOk_of_zero rfl rfl
  | restarts => exact slewOk_of_zero rfl rfl

end

/-! ### The remainder at a tick -/

section

variable {s : State} {c : Time} (timed : s.clock.cluster = some c)

include timed

theorem position_eq : s.position = c.toNat % 2 ^ s.config.k := by simp [position, now, timed]

/-- With no remainder a tick takes cluster time into a round at its position 0 (R42). -/
theorem tickClock_of_no_slew (short : s.config.k ≤ 32) (zero : s.clock.slew = 0) :
    s.tickClock.clock.slew = 0
    ∧ (roundOf s.config.k c ≠ roundOf s.config.k s.tickClock.now → s.tickClock.position = 0) := by
  have clock := clock_tickClock_of_ordinary timed fun adjusts => adjusts.1 zero
  have now : s.tickClock.now = c + 1 := by simp [now, clock]
  refine ⟨by rw [clock]; exact zero, fun changed => ?_⟩
  rw [now] at changed
  rw [position, now]
  exact position_of_boundary short changed

/-- The position that a tick of `d` reaches within the round. -/
theorem tickClock_of_room {d : Nat} (short : s.config.k ≤ 32) (advance : s.tickClock.clock.cluster = some (c + BitVec.ofNat 32 d))
    (room : s.position + d < 2 ^ s.config.k) :
    roundOf s.config.k c = roundOf s.config.k s.tickClock.now ∧ s.tickClock.position = s.position + d := by
  have now : s.tickClock.now = c + BitVec.ofNat 32 d := by simp [now, advance]
  have same : s.tickClock.config = s.config := rfl
  rw [position_eq timed] at room
  rw [State.position, now, same, position_eq timed]
  exact ⟨(roundOf_add short room).symm, position_add short room⟩

/-- While a remainder is left a tick goes on within the round, to the position of the adjustments then made (R40, R41). -/
theorem tickClock_of_slew (least : 10 ≤ s.config.k) (most : s.config.k ≤ 20) (left : s.clock.slew ≠ 0) (onTrack : s.slewOnTrack) :
    roundOf s.config.k c = roundOf s.config.k s.tickClock.now ∧ (s.tickClock.clock.slew ≠ 0 → s.tickClock.slewOnTrack) := by
  obtain ⟨units, many⟩ := round_eq_units least
  have short : s.config.k ≤ 32 := by omega
  have unit : s.tickClock.spacingUnit = s.spacingUnit := rfl
  obtain ⟨below, j, total, reached⟩ := onTrack
  have few : j.val ≤ 254 := by omega
  have made : j.val * (if 0 < s.clock.slew then s.spacingUnit else s.spacingUnit - 1) ≤ 254 * s.spacingUnit :=
    Nat.mul_le_mul few (by split <;> omega)
  rcases s.tick_cases with ordinary | ⟨adjusts, behind⟩ | ⟨adjusts, ahead⟩
  · have clock := clock_tickClock_of_ordinary timed ordinary
    have goesOn : s.clock.spacing + 1 < s.spacingUnit := lt_of_le_of_ne below fun full => ordinary ⟨left, full⟩
    obtain ⟨round, position⟩ := tickClock_of_room timed (d := 1) short (by rw [clock]; rfl) (by omega)
    refine ⟨round, fun _ => ?_⟩
    rw [slewOnTrack, unit, position, clock]
    dsimp only [counted]
    rw [Nat.mod_eq_of_lt goesOn]
    exact ⟨goesOn, j, total, by rw [reached]; rfl⟩
  · have clock := clock_tickClock_of_behind timed adjusts behind
    obtain ⟨_, full⟩ := adjusts
    rw [if_pos behind] at reached made
    obtain ⟨round, position⟩ := tickClock_of_room timed (d := 2) short (by rw [clock]; rfl) (by omega)
    refine ⟨round, fun stillLeft => ?_⟩
    rw [clock] at stillLeft
    dsimp only at stillLeft
    rw [slewOnTrack, unit, position, clock]
    dsimp only
    rw [if_pos (by omega)]
    refine ⟨by omega, ⟨j.val + 1, by omega⟩, ?_, ?_⟩
    · show j.val + 1 + _ ≤ 255
      omega
    · show _ = (j.val + 1) * _ + 1
      rw [Nat.add_mul]
      omega
  · have clock := clock_tickClock_of_ahead timed adjusts ahead
    obtain ⟨_, full⟩ := adjusts
    rw [if_neg (by omega)] at reached made
    obtain ⟨round, position⟩ := tickClock_of_room timed (d := 0) short (by rw [clock]; simp) (by omega)
    refine ⟨round, fun _ => ?_⟩
    rw [slewOnTrack, unit, position, clock]
    dsimp only
    rw [if_neg (by omega)]
    refine ⟨by omega, ⟨j.val + 1, by omega⟩, ?_, ?_⟩
    · show j.val + 1 + _ ≤ 255
      omega
    · show _ = (j.val + 1) * _ + 0
      rw [Nat.add_mul]
      omega

/-- After the tick of a valid clock the boundary that it owes is that of a changed round (R42). -/
theorem slewOk_tickNow_of_timed (levels : BitVec 8) (onTrack : s.tickClock.clock.slew ≠ 0 → s.tickClock.slewOnTrack)
    (starts : roundOf s.config.k c ≠ roundOf s.config.k s.tickClock.now → s.tickClock.clock.slew = 0 ∧ s.tickClock.position = 0) :
    (s.tickNow levels).SlewOk := by
  obtain ⟨_, _, _, _, _, _, cfg⟩ := s.tickNow_frame levels
  obtain ⟨_, _, valid⟩ := s.tickClock_counts
  have ok : (s.tickClock.withOwed (s.tickNow levels).owed).SlewOk := by
    rw [s.owed_tickNow_of_timed levels timed]
    refine ⟨fun untimed => ?_, onTrack, fun owed => starts (of_decide_eq_true owed)⟩
    have untimed : s.tickClock.clock.cluster = none := untimed
    simp [untimed, timed] at valid
  exact ok.of_blocks (s.clock_tickNow levels) cfg rfl

end

/-- A tick keeps the remainder on track, with one left and with none. -/
theorem SlewOk.tickNow {s : State} (ok : s.SlewOk) (phase : s.PhaseOk) (config : s.ConfigOk) (levels : BitVec 8) :
    (s.tickNow levels).SlewOk := by
  obtain ⟨untimed, track, _⟩ := ok
  cases timed : s.clock.cluster with
  | none =>
    obtain ⟨zero, none⟩ := untimed timed
    refine slewOk_of_zero ?_ (by rw [s.owed_tickNow_of_untimed levels timed, none])
    rw [clock_tickNow, s.clock_tickClock_of_untimed timed]
    exact zero
  | some c =>
    have active := active_of_timed (phase.valid_iff.1 (by simp [valid, timed]))
    obtain ⟨taken, _⟩ := phase.taken active
    obtain ⟨least, most⟩ := config.exponent taken
    by_cases zero : s.clock.slew = 0
    · obtain ⟨still, starts⟩ := tickClock_of_no_slew timed (by omega) zero
      exact slewOk_tickNow_of_timed timed levels (fun left => absurd still left) fun changed => ⟨still, starts changed⟩
    · obtain ⟨same, onTrack⟩ := tickClock_of_slew timed least most zero (track zero)
      exact slewOk_tickNow_of_timed timed levels onTrack fun changed => absurd same changed

end State

end Sys2Proof.Machine
end

section
/-! PROOFS. What every row keeps, by the moves that it is made of, and the statements on the clock, the phases and the slew remainder. -/

namespace Sys2Proof.Machine

theorem exec_tick (levels : BitVec 8) (s : State) : exec (.tick levels) s = .next (s.settle.tickNow levels) := rfl

/-- What every move keeps, a chain of them keeps. -/
theorem State.Moves.keep {P : State → Prop} (move : ∀ u v, u.Move v → P u → P v) {s t : State} (moves : s.Moves t) (holds : P s) :
    P t := by
  induction moves with
  | refl => exact holds
  | tail _ last ih => exact move _ _ last ih

/-- What reset, every move and a tick that owes nothing more keep, every step keeps, the queue of commands having no part in it. -/
theorem step_keeps_of_moves {P : State → Prop} (pending : ∀ s q, P s → P (s.withPending q))
    (reset : ∀ pins, P (State.reset.withPins pins)) (move : ∀ s t, s.Move t → P s → P t)
    (tick : ∀ s levels, P (State.settle s) → P (s.settle.tickNow levels)) (s t : State) (holds : P s) (took : step s = .next t) :
    P t := by
  refine step_keeps pending (fun i u holds => ?_) s t holds took
  by_cases resets : i = .hardwareReset
  · subst resets
    exact .next (pending _ _ (reset _))
  by_cases ticks : ∃ levels, i = .tick levels
  · obtain ⟨levels, rfl⟩ := ticks
    exact .next (tick u levels (u.moves_settle.keep move holds))
  · exact fun v row => (exec_moves u i (fun levels same => ticks ⟨levels, same⟩) resets v row).keep move holds

/-! ### The wait of a command -/

section

variable (s : State)

/-- No command is held once it has answered (R172). -/
theorem State.waited_guarded {own : State → State} (c : Command) (answered : (own s).waited = none) :
    (s.guarded c own).waited = none := by
  unfold guarded
  split
  · exact answered
  · rfl

theorem State.waited_answer (c : Command) (code : RespCode) (data : List Byte) : (s.answer c code data).waited = none := rfl

theorem State.waited_sendCommand (c : Command) (p : Payload) : (s.sendCommand c p).waited = none := rfl

/-- Every path of every command ends in its answer. -/
theorem State.waited_run (c : Command) : (s.run c).waited = none := by
  cases c with
  | nop | status | start | stop | readPeers | snapshot =>
    simp only [run, runNop, runStatus, runStart, runStop, runReadPeers, runSnapshot]
    exact s.waited_guarded _ (waited_answer _ _ _ _)
  | configure block =>
    refine s.waited_guarded _ ?_
    split <;> exact waited_answer _ _ _ _
  | post scope fields =>
    simp only [run, runPost]
    refine s.waited_guarded _ ?_
    repeat' split
    · exact waited_answer _ _ _ _
    · exact waited_answer _ _ _ _
    · exact waited_answer _ _ _ _
    · exact waited_sendCommand _ _ _
  | amend scope selector serial new =>
    simp only [run, runAmend]
    refine s.waited_guarded _ ?_
    repeat' split
    · exact waited_answer _ _ _ _
    · exact waited_answer _ _ _ _
    · exact waited_sendCommand _ _ _
  | cancel scope selector serial =>
    simp only [run, runCancel]
    refine s.waited_guarded _ ?_
    repeat' split
    · exact waited_answer _ _ _ _
    · exact waited_answer _ _ _ _
    · exact waited_sendCommand _ _ _
  | find origin serial =>
    simp only [run, runFind]
    refine s.waited_guarded _ ?_
    repeat' split
    all_goals exact waited_answer _ _ _ _
  | readLog count =>
    simp only [run, runReadLog]
    refine s.waited_guarded _ ?_
    split <;> exact waited_answer _ _ _ _
  | readReports count =>
    simp only [run, runReadReports]
    refine s.waited_guarded _ ?_
    split <;> exact waited_answer _ _ _ _
  | drive line kind =>
    simp only [run, runDrive]
    refine s.waited_guarded _ ?_
    repeat' split
    all_goals exact waited_answer _ _ _ _

/-- A command that has waited sixteen ticks is executed before the next one (R172). -/
theorem State.waited_runDue : ∀ n ∈ s.runDue.waited, n < 16 := by
  unfold runDue
  intro n held
  split at held
  · rename_i c ticks work
    split at held
    · rw [waited_run] at held
      exact absurd held nofun
    · rename_i early
      simp only [waited, work, Option.mem_def, Option.some.injEq] at held
      exact held ▸ Nat.lt_of_not_le early
  · rename_i work
    simp [waited, work] at held
  · rename_i work
    simp [waited, work] at held

theorem State.waited_settle : ∀ n ∈ s.settle.waited, n < 16 := by
  unfold settle
  exact waited_runDue _

end

/-! ### Reset -/

theorem State.phaseOk_reset (pins : BitVec 8) : (reset.withPins pins).PhaseOk :=
  (phaseOk_iff_of_idle (.inl rfl)).2 ⟨rfl, rfl, rfl, rfl, nofun, rfl, rfl, rfl, rfl⟩

theorem State.configOk_reset (pins : BitVec 8) : (reset.withPins pins).ConfigOk := ⟨rfl, rfl⟩

/-! ### The statements -/

/-- Settles O5: no move changes the count, and a tick counts once. -/
theorem localTickCount : Obligations.LocalTickCount := by
  have kept {s t : State} (moves : s.Moves t) : t.clock.ticks = s.clock.ticks :=
    moves.keep (P := fun u => u.clock.ticks = s.clock.ticks) (fun _ _ move same => move.ticks.trans same) rfl
  refine ⟨fun s levels => ⟨_, rfl, ?_⟩, fun s => ⟨_, rfl, rfl⟩, fun c s t noTick noReset took => ?_⟩
  · obtain ⟨ticks, _⟩ := s.settle.tickClock_counts
    rw [State.clock_tickNow, ticks, kept s.moves_settle]
  · exact kept (exec_moves s c noTick noReset t took)

/-- Settles O54: reset, every move and the tick keep what the station state fixes; and a command that has waited sixteen ticks is
executed before the next tick. -/
theorem phaseKept : Obligations.PhaseKept := by
  constructor
  · intro s t phase config took
    refine step_keeps_of_moves (P := fun u => u.PhaseOk ∧ u.ConfigOk) (fun _ _ ok => ok)
      (fun pins => ⟨State.phaseOk_reset pins, State.configOk_reset pins⟩) (fun u v move => ?move) (fun u levels => ?tick) s t
      ⟨phase, config⟩ took
    case move => exact And.imp move.phaseOk move.configOk
    case tick => exact And.imp (·.tickNow levels) (·.tickNow levels)
  · intro s t wait took
    refine step_keeps_of_moves (P := State.WaitOk) (fun _ _ ok => ok) (fun _ => nofun) (fun _ _ move => move.waitOk)
      (fun u levels _ n held => ?_) s t wait took
    rw [State.waited_tickNow] at held
    obtain ⟨m, before, rfl⟩ := Option.mem_map.1 held
    exact u.waited_settle m before

/-- Settles O58: at a boundary the correction is handed over at position 0, and until the next one its adjustments stay within the
round. -/
theorem slewKept : Obligations.SlewKept := by
  intro s t phase config ok took
  have kept : t.PhaseOk ∧ t.ConfigOk ∧ t.SlewOk := by
    refine step_keeps_of_moves (P := fun u => u.PhaseOk ∧ u.ConfigOk ∧ u.SlewOk) (fun _ _ ok => ok) (fun pins => ?reset)
      (fun u v move ok => ?move) (fun u levels ok => ?tick) s t ⟨phase, config, ok⟩ took
    case reset => exact ⟨State.phaseOk_reset pins, State.configOk_reset pins, State.slewOk_of_zero rfl rfl⟩
    case move =>
      obtain ⟨phase, config, slew⟩ := ok
      exact ⟨move.phaseOk phase, move.configOk config, move.slewOk phase slew⟩
    case tick =>
      obtain ⟨phase, config, slew⟩ := ok
      exact ⟨phase.tickNow levels, config.tickNow levels, slew.tickNow phase config levels⟩
  obtain ⟨_, _, slew⟩ := kept
  exact slew

/-- Settles O6: the tick after what the last one left, by the three ticks of a valid clock. -/
theorem clusterAdvance : Obligations.ClusterAdvance := by
  intro s levels wait
  rw [exec_tick, s.settle_eq_afterLeft wait]
  dsimp only
  generalize s.afterLeft = u
  obtain ⟨member, line, cont, sync, sched, exch, cfg⟩ := u.tickNow_frame levels
  refine ⟨fun untimed => ⟨_, rfl, ?_, u.owed_tickNow_of_untimed levels untimed, ?_⟩, fun c timed => ⟨_, rfl, fun ordinary => ?_,
    fun adjusts behind => ?_, fun adjusts ahead => ?_, ?_, member, line, cont, sync, sched, exch, cfg⟩⟩
  · rw [State.clock_tickNow, u.clock_tickClock_of_untimed untimed]
    rfl
  · simp [u.tickNow_of_untimed levels untimed]
  · rw [State.clock_tickNow, State.clock_tickClock_of_ordinary timed ordinary]
    rfl
  · rw [State.clock_tickNow, State.clock_tickClock_of_behind timed adjusts behind]
    rfl
  · rw [State.clock_tickNow, State.clock_tickClock_of_ahead timed adjusts ahead]
    rfl
  · have now : (u.tickNow levels).now = u.tickClock.now := by rw [State.now, State.clock_tickNow]; rfl
    rw [u.owed_tickNow_of_timed levels timed, now]
    simp [roundOf_eq_iff]

/-- The window of a station that counts has expired or has not (R45, R80). -/
theorem State.foundOwed_of_listening {s : State} {n : Nat} (listening : s.member.state = .listen) (counts : s.clock.listen = some n) :
    s.foundOwed = if s.listenWindow ≤ n then s.found else s := by
  simp [foundOwed, windowExpired, listening, counts]

/-- Settles O15: a station founds where its count has reached the window. -/
theorem founding : Obligations.Founding := by
  intro s n listening counts
  have row : exec .listenWindowExpiry s = .next (if s.listenWindow ≤ n then s.found else s) :=
    congrArg _ (State.foundOwed_of_listening listening counts)
  refine ⟨fun early => ?_, fun expired => ⟨s.found, ?_, rfl, ?_⟩⟩
  · exact row.trans (congrArg _ (if_neg (Nat.not_le.2 early)))
  · exact row.trans (congrArg _ (if_pos expired))
  · simp [State.found, State.stampTime, State.unsynced, State.valid, listening]

end Sys2Proof.Machine
end

section
/-! PROOFS. A beacon that a station in LISTEN adopts (R48, R54, R81), and the command STOP (R89–R91). -/

namespace Sys2Proof.Machine

/-! ### Adoption -/

/-- A valid BEACON of another station is handed on from WAIT, with the record of its start edge (R7, R15). -/
theorem State.receive_beacon {s : State} {f : PartialFrame} {samples : List Bool} {sender : Station} {time : Time} {body : BeaconBody}
    (atOnce : Bool) (valid : takeSamples f samples = .valid { sender := sender, payload := .beacon (some time) body })
    (other : sender ≠ s.number) :
    ∃ run, s.receive atOnce f samples = (s.withLine { s.line with
      receiver := .wait, sof := none, frame := none, dominantRun := run, recessiveRun := 0 }).takeBeacon sender time body s.line.sof := by
  refine ⟨runAfter s.line.dominantRun samples, ?_⟩
  unfold receive
  rw [valid]
  exact if_neg other

/-- Settles O26: the frame is valid in WAIT, and in LISTEN a MEMBER beacon alone is adopted. -/
theorem adoption : Obligations.Adoption := by
  intro s f event samples sender time body sof of receives frame record valid listening other
  obtain ⟨atOnce, took⟩ := exec_frameCompletion_receive of receives frame
  obtain ⟨run, handed⟩ := State.receive_beacon atOnce valid other
  rw [handed, record] at took
  refine ⟨_, took, ?_⟩
  generalize hl : ({ s.line with receiver := .wait, sof := none, frame := none, dominantRun := run, recessiveRun := 0 } : LineUnit) = l
  have taken : (s.withLine l).takeBeacon sender time body (some sof) =
      if body.member then (s.withLine l).adopt time (some sof) else s.withLine l := by
    simp [State.takeBeacon, listening]
  rw [taken]
  subst hl
  cases member : body.member with
  | false => exact ⟨rfl, rfl, rfl, fun _ => rfl, nofun⟩
  | true =>
    refine ⟨rfl, rfl, rfl, nofun, fun _ => ⟨rfl, rfl, rfl, ?_, rfl, rfl, rfl, rfl, rfl, rfl⟩⟩
    exact congrArg (arrive s.port.reports ⟨.state · .joining .adopted, _, _⟩) listening

/-! ### STOP -/

section

variable {s : State}

theorem State.runStop_of_active (active : s.active = true) : s.runStop = (s.enterStopped .stop).answer .stop .ok [] := by
  refine guarded_of_allowed _ ?_
  rcases active_cases active with h | ⟨_, h | h⟩ <;> simp [Command.allowedIn, h]

/-- What an entry into STOPPED makes of the frame in SEND and of the receiver (R17). -/
theorem LineUnit.stopped_cases (l : LineUnit) :
    (l.receiver ≠ .send → l.stopped.receiver = .off ∧ l.stopped.frame = none)
    ∧ (l.receiver = .send → l.stopped.receiver = .send ∧ l.stopped.sending = l.sending ∧ l.stopped.afterSend = .off)
    ∧ l.stopped.errors = 0 ∧ l.stopped.muted = false := by
  by_cases h : l.receiver = .send <;> simp [stopped, h]

end

/-- Settles O40: STOP runs, and enters STOPPED by `State.enterStopped_stops` and the blocks of each way in. -/
theorem stop : Obligations.Stop := by
  intro s n least most work active phase
  have row : exec .stop s = .next s.runStop := s.exec_row .stop n work least most
  rw [State.runStop_of_active active] at row
  obtain ⟨member, line, out, cap, listen, ticks, cont, owed⟩ := State.enterStopped_stops .stop active
  obtain ⟨cluster, sched⟩ := State.enterStopped_empties .stop active phase
  obtain ⟨off, sends, errors, muted⟩ := s.line.stopped_cases
  have untimed : s.member.state = .listen → s.clock.cluster = none := fun h => ((State.phaseOk_iff_of_listen h).1 phase).1
  have reports := State.reports_enterStopped .stop active untimed
  refine ⟨_, row, member, ticks, cluster, listen, line ▸ off, line ▸ sends, line ▸ errors, line ▸ muted,
    congrArg Contention.idle cont, congrArg Contention.slot cont, congrArg Contention.offered cont, sched, fun l => ?line, cap,
    fun timed => ?timed, fun listening => ?listening, owed, s.exch_enterStopped .stop, s.cfg_enterStopped .stop, s.pins_enterStopped .stop,
    s.block_enterStopped .stop, s.transaction_enterStopped .stop, reports, rfl, rfl⟩
  case line =>
    refine Eq.trans ?_ (OutLine.defaulted_eq (s.out.lines[l]) (s.defaultHigh l))
    show (s.enterStopped .stop).out.lines[l] = _
    simp [out, State.defaultLines, mapLines]
  case timed =>
    have h := ((State.active_cases active).resolve_left timed).2
    rw [State.enterStopped_of_timed .stop h]
    obtain ⟨_, _, _, cont, sync, _⟩ := s.teardownToStopped_blocks .stop
    refine ⟨congrArg Contention.queue cont, fun i => ?_⟩
    show (s.teardownToStopped .stop).sync.peers[i] = _
    rw [sync, SyncUnit.getElem_left]
    rfl
  case listening =>
    rw [State.enterStopped_of_listen .stop listening]
    exact ⟨rfl, rfl⟩

end Sys2Proof.Machine
end

section
/-! PROOFS. The peer table (R52): what every operation keeps of the own record and of the others, and so every step. -/

namespace Sys2Proof.Machine

/-! ### A record -/

/-- A record as R52 has it: SELF exactly if it is the own one, which holds nothing else; fresh with beacon fields only; missed 0–15. -/
def PeerRecord.Fits (own : Prop) (r : PeerRecord) : Prop :=
  (r.state = .self ↔ own) ∧ (r.state = .self → r = { cleared with state := .self })
  ∧ (r.fresh = true → r.beacon.isSome = true) ∧ r.missed ≤ 15

theorem State.peersOk_iff (s : State) : s.PeersOk ↔ ∀ i : Fin 16, (s.sync.peers[i]).Fits (s.member.number = some i) := Iff.rfl

namespace PeerRecord.Fits

variable {own : Prop} {r : PeerRecord}

theorem cleared (other : ¬ own) : PeerRecord.cleared.Fits own := ⟨by simp [PeerRecord.cleared, other], nofun, nofun, Nat.zero_le _⟩

theorem ownRecord (holds : own) : ({ PeerRecord.cleared with state := .self } : PeerRecord).Fits own :=
  ⟨by simp [holds], fun _ => rfl, nofun, Nat.zero_le _⟩

/-- A beacon is recorded in the record of another station (R55). -/
theorem recorded (fits : r.Fits own) (other : ¬ own) (b : BeaconFields) :
    ({ r with fresh := true, beacon := some b } : PeerRecord).Fits own := by
  obtain ⟨state, _, _, missed⟩ := fits
  exact ⟨state, fun h => absurd (state.1 h) other, fun _ => rfl, missed⟩

/-- A teardown keeps the own record and clears the others (R70). -/
theorem tornDown (fits : r.Fits own) : r.tornDown.Fits own := by
  unfold PeerRecord.tornDown
  split
  · exact fits
  · rename_i other
    exact .cleared fun holds => other (fits.1.2 holds)

/-- An evaluation counts up to 15 missed beacons (R59). -/
theorem missed_evaluated (bound limit : Nat) (few : r.missed ≤ 15) : (r.evaluated bound limit).missed ≤ 15 := by
  unfold PeerRecord.evaluated
  split
  · exact few
  · exact Nat.zero_le _
  · exact few
  all_goals exact Nat.min_le_right _ _

/-- An evaluation leaves no record fresh, and the own one as it is (R59). -/
theorem evaluated (bound limit : Nat) (fits : r.Fits own) : (r.evaluated bound limit).Fits own := by
  obtain ⟨state, held, _, missed⟩ := fits
  obtain ⟨_, stale⟩ := r.evaluated_keeps bound limit
  refine ⟨(r.evaluated_state_eq_self_iff bound limit).trans state, fun h => ?_, fun fresh => ?_, missed_evaluated bound limit missed⟩
  · have self := (r.evaluated_state_eq_self_iff bound limit).1 h
    rw [r.evaluated_self bound limit self, held self]
    rfl
  · rw [stale] at fresh
    exact absurd fresh nofun

end PeerRecord.Fits

/-- A change of one record leaves the others. -/
theorem getElem_set_other (peers : Vector PeerRecord 16) {i station : Fin 16} (r : PeerRecord) (away : i ≠ station) :
    (peers.set station r)[i] = peers[i] := Vector.getElem_set_ne station.isLt i.isLt fun same => away (Fin.ext same.symm)

/-! ### The operations -/

namespace State.PeersOk

section

variable {s t : State} (ok : s.PeersOk)

include ok

/-- The table and the number as they were. -/
theorem of_table (peers : t.sync.peers = s.sync.peers := by simp) (number : t.member.number = s.member.number := by simp) :
    t.PeersOk := by
  rw [PeersOk, peers, number]
  exact ok

/-- Each record is what an operation that respects R52 makes of it. -/
theorem of_records (each : ∀ (i : Fin 16) (own : Prop), (s.sync.peers[i]).Fits own → (t.sync.peers[i]).Fits own)
    (number : t.member.number = s.member.number) : t.PeersOk := by
  rw [peersOk_iff, number]
  exact fun i => each i _ (ok i)

theorem left (sync : t.sync = s.sync.left) (number : t.member.number = s.member.number) : t.PeersOk :=
  ok.of_records (fun i own fits => by rw [sync, SyncUnit.getElem_left]; exact fits.tornDown) number

theorem teardownToListen (cause : Cause) : (s.teardownToListen cause).PeersOk := by
  obtain ⟨member, _, _, _, sync, _⟩ := s.teardownToListen_blocks cause
  exact ok.left sync (by rw [member])

theorem enterStopped (cause : Cause) : (s.enterStopped cause).PeersOk := by
  obtain ⟨member, _, _, _, sync, _⟩ := s.teardownToStopped_blocks cause
  unfold State.enterStopped
  cases s.member.state with
  | listen => exact ok
  | joining | member => exact ok.left sync (by rw [member])
  | unconfigured | ready | stopped => exact ok

/-- The evaluation of a boundary (R59). -/
theorem evaluation (turn : LineTurn) : (s.evaluation turn).PeersOk :=
  ok.of_records (fun i own fits => by rw [sync_evaluation, s.getElem_evaluatedPeers i]; exact fits.evaluated _ _)
    (by rw [member_evaluation])

theorem takeVerdict (v : Verdict) : (s.takeVerdict v).PeersOk := by
  rcases v.effect_cases s.member.state with ⟨rfl, h⟩ | ⟨rfl, h⟩ | ⟨rfl, h⟩ | void
  · rw [takeVerdict_join h]
    exact ok
  · rw [takeVerdict_joinFailure h]
    exact ok.teardownToListen _
  · rw [takeVerdict_split h]
    exact ok.teardownToListen _
  · rw [takeVerdict_void void]
    exact ok

theorem takeHandedVerdict : s.takeHandedVerdict.PeersOk := by
  unfold State.takeHandedVerdict
  split
  · exact ok
  · rename_i h _
    have dropped : (s.dropVerdict h.turn).PeersOk := ok
    exact (dropped.takeVerdict h.verdict).of_table

theorem evaluationOwed (turn : LineTurn) : (s.evaluationOwed turn).PeersOk := by
  unfold State.evaluationOwed
  split
  · exact ok.evaluation turn
  · exact ok

theorem boundaryOwed (turn : LineTurn) : (s.boundaryOwed turn).PeersOk := by
  unfold State.boundaryOwed State.boundary
  split
  · exact (ok.evaluation turn).takeHandedVerdict
  · exact ok

theorem foundOwed : s.foundOwed.PeersOk := by
  unfold State.foundOwed
  split <;> exact ok

theorem fireOwed : s.fireOwed.PeersOk := by
  unfold State.fireOwed
  split
  · exact ok
  split
  · exact ok.of_table
  · exact ok

theorem endPulse (line : Fin 8) : (s.endPulse line).PeersOk := ok.of_table

theorem qualify (atOnce : Bool) (input : Fin 8) : (s.qualify atOnce input).PeersOk := ok.of_table

/-! Reception (R15) -/

/-- A beacon of another station is not recorded in the own record (R55). -/
theorem recordBeacon (sender : Station) (time : Time) (body : BeaconBody) (sof : Option SofRecord) (other : sender ≠ s.number) :
    (s.recordBeacon sender time body sof).PeersOk := by
  unfold State.recordBeacon
  split
  · exact ok
  have foreign : s.member.number ≠ some sender := fun h => other (by simp [State.number, h])
  refine (peersOk_iff _).2 fun i => ?_
  by_cases here : i = sender
  · subst here
    simpa using (s.peersOk_iff.1 ok i).recorded foreign _
  · simp only [sync_withSync, getElem_set_other _ _ here]
    exact ok i

theorem takeBeacon (sender : Station) (time : Time) (body : BeaconBody) (sof : Option SofRecord) (other : sender ≠ s.number) :
    (s.takeBeacon sender time body sof).PeersOk := by
  unfold State.takeBeacon
  cases s.member.state with
  | listen =>
    dsimp only
    split <;> exact ok
  | joining | member => exact ok.recordBeacon sender time body sof other
  | unconfigured | ready | stopped => exact ok

theorem takeRemote (atOnce : Bool) (sender : Station) (p : Payload) : (s.takeRemote atOnce sender p).PeersOk := by
  unfold State.takeRemote
  split
  · dsimp only
    split
    · exact ok.of_table
    · exact ok
  · exact ok

theorem handOn (atOnce : Bool) (f : Frame) (sof : Option SofRecord) : (s.handOn atOnce f sof).PeersOk := by
  unfold State.handOn
  split
  · exact ok.enterStopped _
  · rename_i other
    cases f.payload with
    | beacon time body => exact ok.takeBeacon _ _ _ _ other
    | action fields => exact ok.takeRemote _ _ _
    | amend selector serial new => exact ok.takeRemote _ _ _
    | cancel selector serial => exact ok.takeRemote _ _ _
    | event selector channel edge stamp sequence =>
      dsimp only
      unfold State.takeEvent
      split
      · exact ok.of_table
      · exact ok
    | refuse origin serial reason =>
      dsimp only
      unfold State.takeRefuse
      split <;> exact ok

theorem receive (atOnce : Bool) (f : PartialFrame) (samples : List Bool) : (s.receive atOnce f samples).PeersOk := by
  unfold State.receive
  dsimp only
  cases takeSamples f samples with
  | more _ | truncated | error => exact ok
  | valid frame =>
    refine handOn ?_ _ _ _
    exact ok

theorem complete (atOnce : Bool) (samples : List Bool) : (s.complete atOnce samples).PeersOk := by
  unfold State.complete
  split
  · exact ok.receive _ _ _
  · exact ok

/-! The own frame (R29–R34) -/

theorem selfDeliver (p : Payload) : (s.selfDeliver p).PeersOk := by
  have claimed : (s.applyClaim s.number .selfDelivery p).1.PeersOk := ok.of_table
  unfold State.selfDeliver
  split
  · split <;> rename_i answer <;> rw [answer] at claimed <;> exact claimed
  · exact ok

theorem transmissionSucceeded : s.transmissionSucceeded.PeersOk := by
  have removed : s.removeTransmitted.PeersOk := ok
  unfold State.transmissionSucceeded
  split
  · exact ok
  · dsimp only
    split
    · exact removed
    · exact removed.selfDeliver _

theorem transmissionFailed : s.transmissionFailed.PeersOk := by
  unfold State.transmissionFailed
  split
  · exact ok
  split
  · exact ok
  split <;> exact ok

theorem afterMismatch (bit : Nat) : (s.afterMismatch bit).PeersOk := by
  unfold State.afterMismatch
  dsimp only
  cases s.line.afterSend with
  | off | seek => exact ok
  | inStep =>
    refine receive ?_ _ _ _
    exact ok

theorem stick : s.stick.PeersOk := by
  unfold State.stick
  dsimp only
  split <;> exact ok

theorem startFrame (place : Nat) : (s.startFrame place).PeersOk := by
  unfold State.startFrame
  split <;> exact ok

end

end State.PeersOk

end Sys2Proof.Machine
end

section
/-! PROOFS. The peer table in every row: START alone makes it anew (R67), with the number that the station state fixes. -/

namespace Sys2Proof.Machine

/-- START makes the own record SELF and the others ABSENT (R67). -/
theorem SyncUnit.fits_started (number : Station) (i : Fin 16) : ((SyncUnit.started number).peers[i]).Fits (some number = some i) := by
  have record : (SyncUnit.started number).peers[i]
      = if i = number then { PeerRecord.cleared with state := .self } else PeerRecord.cleared := by simp [started]
  rw [record]
  by_cases own : i = number
  · rw [if_pos own]
    exact .ownRecord (own ▸ rfl)
  · rw [if_neg own]
    exact .cleared fun same => own (Option.some.inj same).symm

/-- What `settle` takes before the command in its sixteenth tick (log 1). -/
def State.beforeDue (s : State) : State :=
  ((List.finRange 8).foldl (fun s i => s.qualify true i)
    (((List.finRange 8).foldl (fun s l => s.endPulse l) s.insertHandedOver.takeAllHandedOn.takeHandedVerdict).fireOwed.boundaryOwed
      .first)).foundOwed

theorem State.settle_eq_beforeDue (s : State) : s.settle = s.beforeDue.runDue := rfl

theorem State.moves_beforeDue (s : State) : s.Moves s.beforeDue := by
  unfold beforeDue
  generalize List.finRange 8 = each
  have handedOn := ((Steady.insertHandedOver s).trans (Steady.takeAllHandedOn _)).moves.trans (moves_takeHandedVerdict _)
  have pulses := handedOn.trans (Steady.foldl Steady.endPulse each _).moves
  have boundary := (pulses.trans (Steady.fireOwed _).moves).trans (moves_boundaryOwed _ .first)
  exact (boundary.trans (Steady.foldl (fun u i => Steady.qualify u true i) each _).moves).trans (moves_foundOwed _)

namespace State.PeersOk

variable {s : State} (ok : s.PeersOk)

include ok

/-! ### The commands -/

theorem guarded {own : State → State} (c : Command) (kept : c.allowedIn s.member.state = true → (own s).PeersOk) :
    (s.guarded c own).PeersOk := by
  unfold State.guarded
  split
  · rename_i allowed
    exact kept allowed
  · exact ok

/-- A command's own part that has no part in the table. -/
theorem guarded_of_kept {own : State → State} (c : Command) (kept : (own s).PeersOk) : (s.guarded c own).PeersOk :=
  ok.guarded c fun _ => kept

omit ok in
/-- A station that enters LISTEN at a START has its number (R72, R77). -/
theorem enterListen {number : Station} (taken : s.member.number = some number) : s.enterListen.PeersOk := by
  have same : s.number = number := by simp [State.number, taken]
  intro i
  show ((SyncUnit.started s.number).peers[i]).Fits (s.member.number = some i)
  rw [same, taken]
  exact SyncUnit.fits_started number i

theorem runStart (phase : s.PhaseOk) : s.runStart.PeersOk := by
  refine ok.guarded _ fun allowed => ?_
  split
  · rename_i c _ _
    have numbered : ((s.withCfg (some c)).withMember { s.member with number := some c.number }).member.number = some c.number := rfl
    exact enterListen numbered
  · rename_i other
    have idle : s.member.state = .ready ∨ s.member.state = .stopped := by simpa [Command.allowedIn] using allowed
    rcases idle with ready | stopped
    · obtain ⟨_, _, _, _, held, _⟩ := (phaseOk_iff_of_idle (.inr ready)).1 phase
      obtain ⟨c, held⟩ := Option.isSome_iff_exists.1 (held ready)
      exact absurd held (other c ready)
    · obtain ⟨_, _, _, _, cfg, number, _⟩ := (phaseOk_iff_of_stopped stopped).1 phase
      obtain ⟨c, taken⟩ := Option.isSome_iff_exists.1 cfg
      exact enterListen (number.trans (congrArg (Option.map _) taken))

theorem sendCommand (c : Command) (p : Payload) : (s.sendCommand c p).PeersOk :=
  show ((s.enqueue (.fresh p true none)).1).PeersOk from ok.of_table

/-- Of the commands START and STOP reach the table (R67, R70). -/
theorem run (phase : s.PhaseOk) (c : Command) : (s.run c).PeersOk := by
  cases c with
  | start => exact ok.runStart phase
  | stop => exact ok.guarded_of_kept _ (ok.enterStopped .stop)
  | nop => exact ok.guarded_of_kept _ ok
  | status => exact ok.guarded_of_kept _ ok
  | readPeers => exact ok.guarded_of_kept _ ok
  | snapshot => exact ok.guarded_of_kept _ (show ((s.enterLog _).1).PeersOk from ok.of_table)
  | configure block =>
    refine ok.guarded_of_kept _ ?_
    split <;> exact ok
  | post scope fields =>
    refine ok.guarded_of_kept _ ?_
    split
    · exact ok
    split
    · exact ok
    split
    · exact show ((s.insert _).1).PeersOk from ok.of_table
    · exact ok.sendCommand _ _
  | amend scope selector serial new =>
    refine ok.guarded_of_kept _ ?_
    split
    · exact ok
    split
    · exact show ((s.amendEntry _ _).1).PeersOk from ok.of_table
    · exact ok.sendCommand _ _
  | cancel scope selector serial =>
    refine ok.guarded_of_kept _ ?_
    split
    · exact ok
    split
    · exact show ((s.cancelEntry _).1).PeersOk from ok.of_table
    · exact ok.sendCommand _ _
  | find origin serial =>
    refine ok.guarded_of_kept _ ?_
    split
    · exact ok
    dsimp only
    split <;> exact ok
  | readLog count =>
    refine ok.guarded_of_kept _ ?_
    split <;> exact ok
  | readReports count =>
    refine ok.guarded_of_kept _ ?_
    split <;> exact ok
  | drive line kind =>
    refine ok.guarded_of_kept _ ?_
    split
    · exact ok
    split <;> exact ok

/-- A row of a command executes nothing, or a command (R172). -/
theorem row (phase : s.PhaseOk) (c : Command) : LeadsTo PeersOk (exec c.row s) := by
  rcases exec_row_cases s c with same | ⟨d, runs⟩
  · rw [same]
    exact .next ok
  · rw [runs]
    exact .next (ok.run phase d)

/-! ### The tick -/

theorem beforeDue : s.beforeDue.PeersOk := by
  have handedOver : s.insertHandedOver.takeAllHandedOn.PeersOk := ok.of_table
  unfold State.beforeDue
  generalize List.finRange 8 = each
  have pulses := List.foldlRecOn each _ handedOver.takeHandedVerdict fun _ ok line _ => endPulse ok line
  exact (List.foldlRecOn each _ (pulses.fireOwed.boundaryOwed .first) fun _ ok input _ => qualify ok true input).foundOwed

theorem settle (phase : s.PhaseOk) : s.settle.PeersOk := by
  have before : s.beforeDue.PhaseOk := s.moves_beforeDue.keep (fun _ _ => Move.phaseOk) phase
  rw [settle_eq_beforeDue]
  unfold State.runDue
  split
  · split
    · exact ok.beforeDue.run before _
    · exact ok.beforeDue
  all_goals exact ok.beforeDue

theorem tickNow (levels : BitVec 8) : (s.tickNow levels).PeersOk := by
  obtain ⟨member, _, _, sync, _⟩ := s.tickNow_frame levels
  exact ok.of_table (by rw [sync]) (by rw [member])

/-! ### The rows -/

theorem lineIdle : LeadsTo PeersOk (execLineIdle s) := by
  unfold execLineIdle
  split <;> exact .next ok

theorem idleSlot : LeadsTo PeersOk (execIdleSlot s) := by
  have begun : s.beginSlot.PeersOk := ok
  unfold execIdleSlot
  split
  · dsimp only
    split
    · exact .next begun
    split
    · exact .next (begun.startFrame _)
    · exact .next begun
  · exact .next ok

theorem startOfFrame : LeadsTo PeersOk (execStartOfFrame s) := by
  unfold execStartOfFrame
  split <;> exact .next ok

theorem rejectedStartEdge : LeadsTo PeersOk (execRejectedStartEdge s) := by
  unfold execRejectedStartEdge
  cases s.line.receiver with
  | off | send | stuck | seek | wait => exact .next ok
  | receive =>
    dsimp only
    split
    · exact .next ok
    split <;> exact .next ok

theorem frameTruncated : LeadsTo PeersOk (execFrameTruncated s) := by
  unfold execFrameTruncated
  split
  · split <;> exact .next ok
  · exact .next ok

theorem transmissionSuccess : LeadsTo PeersOk (execTransmissionSuccess s) := by
  have ended (receiver : Receiver) : (s.endSend receiver 0).PeersOk := ok
  unfold execTransmissionSuccess
  split
  · exact .next (ended _).transmissionSucceeded
  · exact .next ok

theorem readbackMismatch (bit : Nat) : LeadsTo PeersOk (execReadbackMismatch bit s) := by
  unfold execReadbackMismatch
  split
  · exact .next (ok.transmissionFailed.afterMismatch bit)
  · exact .next ok

theorem lineStuck : LeadsTo PeersOk (execLineStuck s) := by
  unfold execLineStuck
  cases s.line.receiver with
  | off | stuck => exact .next ok
  | seek | wait | receive => exact .next ok.stick
  | send =>
    cases s.line.afterSend with
    | off => exact .next ok.transmissionFailed
    | inStep | seek => exact .next ok.transmissionFailed.stick

theorem stuckRunEnd : LeadsTo PeersOk (execStuckRunEnd s) := by
  unfold execStuckRunEnd
  split <;> exact .next ok

theorem lineReleased : LeadsTo PeersOk (execLineReleased s) := by
  unfold execLineReleased
  split <;> exact .next ok

theorem transactionBegin : LeadsTo PeersOk (execTransactionBegin s) := by
  unfold execTransactionBegin beginTransaction
  split
  · refine .next ?_
    split <;> exact ok
  · exact .next ok

theorem transactionEnd (bits cut : List Bool) : LeadsTo PeersOk (execTransactionEnd bits cut s) := by
  unfold execTransactionEnd endTransaction
  split
  · exact .next ok
  · refine .next ?_
    split
    · exact ok
    split <;> exact ok

omit ok in
/-- Before the first START no record is SELF (R67). -/
theorem reset (pins : BitVec 8) : (State.reset.withPins pins).PeersOk := by
  intro i
  have record : (State.reset.withPins pins).sync.peers[i] = PeerRecord.cleared := Vector.getElem_replicate _
  rw [record]
  exact PeerRecord.Fits.cleared nofun

/-- Every row keeps the table. A row of a command runs the command that the port holds, so that the parameters named here are of no
account. -/
theorem everyRow (phase : s.PhaseOk) (i : Instr) : LeadsTo PeersOk (exec i s) := by
  cases i with
  | hardwareReset => exact .next (reset s.pins)
  | tick levels => exact .next ((ok.settle phase).tickNow levels)
  | roundBoundary event =>
    cases event with
    | whole turn => exact .next (ok.boundaryOwed turn)
    | evaluation turn => exact .next (ok.evaluationOwed turn)
    | verdict => exact .next ok.takeHandedVerdict
  | listenWindowExpiry => exact .next ok.foundOwed
  | firing => exact .next ok.fireOwed
  | pulseEnd line => exact .next (ok.endPulse line)
  | edgeQualified event =>
    cases event with
    | whole input => exact .next (ok.qualify true input)
    | handOver input => exact .next (ok.qualify false input)
    | insertion => exact .next ok.of_table
  | frameCompletion event =>
    cases event with
    | whole samples => exact .next (ok.complete true samples)
    | handOver samples => exact .next (ok.complete false samples)
    | next => exact .next ok.of_table
  | lineIdle => exact ok.lineIdle
  | idleSlot => exact ok.idleSlot
  | startOfFrame => exact ok.startOfFrame
  | frameTruncated => exact ok.frameTruncated
  | transmissionSuccess => exact ok.transmissionSuccess
  | readbackMismatch bit => exact ok.readbackMismatch bit
  | lineStuck => exact ok.lineStuck
  | lineReleased => exact ok.lineReleased
  | transactionBegin => exact ok.transactionBegin
  | transactionEnd bits cut => exact ok.transactionEnd bits cut
  | stuckRunEnd => exact ok.stuckRunEnd
  | rejectedStartEdge => exact ok.rejectedStartEdge
  | nop => exact ok.row phase .nop
  | status => exact ok.row phase .status
  | configure => exact ok.row phase (.configure [])
  | start => exact ok.row phase .start
  | stop => exact ok.row phase .stop
  | post => exact ok.row phase (.post 0 (actionFieldsAt [] 0))
  | amend => exact ok.row phase (.amend 0 0 0 ⟨0, 0⟩)
  | cancel => exact ok.row phase (.cancel 0 0 0)
  | find => exact ok.row phase (.find 0 0)
  | readLog => exact ok.row phase (.readLog 0)
  | readReports => exact ok.row phase (.readReports 0)
  | readPeers => exact ok.row phase .readPeers
  | snapshot => exact ok.row phase .snapshot
  | drive => exact ok.row phase (.drive 0 0)

end State.PeersOk

/-- Settles O56: every row keeps the own record and makes no other one SELF, by the operations that it is made of. -/
theorem peersKept : Obligations.PeersKept := by
  intro s t phase ok took
  unfold step at took
  split at took
  · exact Host.Outcome.next.inj took ▸ ok
  · rename_i c rest _
    have waits : (s.withPending rest).PeersOk := ok
    exact waits.everyRow phase c t took

end Sys2Proof.Machine
end

section
/-! PROOFS. What the blocks hand one another and what `settle` takes of it (log 1): after it no insertion, verdict, claim or request is
left (R66, R136, R137, R165), and a command in its sixteenth tick has answered (R172). -/

namespace Sys2Proof.Machine

/-- Nothing handed over is left to be taken. -/
def State.NothingHanded (s : State) : Prop := s.owed.insertions = [] ∧ s.owed.verdict = none ∧ s.owed.exchange = []

/-! ### Claims and requests -/

/-- The rows that something handed on takes: a claim may make a request (R137). -/
def HandedOn.rows : HandedOn → Nat
  | .claim _ _ => 2
  | .refusal _ _ => 1

/-- The rows that all that is handed on may take. -/
def State.handedRows (s : State) : Nat := (s.owed.exchange.map HandedOn.rows).sum

theorem State.handedRows_le (s : State) : s.handedRows ≤ 2 * s.owed.exchange.length := by
  unfold handedRows
  induction s.owed.exchange with
  | nil => exact le_refl _
  | cons x rest ih =>
    have : x.rows ≤ 2 := by cases x <;> simp [HandedOn.rows]
    simp only [List.map_cons, List.sum_cons, List.length_cons]
    omega

/-- Each row takes one of them. -/
theorem State.handedRows_takeHandedOn (s : State) : s.takeHandedOn.handedRows ≤ s.handedRows - 1 := by
  unfold takeHandedOn handedRows
  split
  · rename_i held
    simp [held]
  · rename_i sender p rest held
    have claimed := congrArg Owed.exchange ((s.withOwed { s.owed with exchange := rest }).owed_applyClaim sender .remote p)
    rw [held]
    split
    · rename_i v answer
      rw [answer] at claimed
      have left : v.owed.exchange = rest := claimed
      simp [left, HandedOn.rows]
    · simp [HandedOn.rows]
  · rename_i held
    simp [held, HandedOn.rows]

/-- Nothing is handed on after all has been taken. -/
@[simp] theorem State.exchange_takeAllHandedOn (s : State) : s.takeAllHandedOn.owed.exchange = [] := by
  have taken (l : List Nat) : ∀ u : State, u.handedRows ≤ l.length → (l.foldl (fun u _ => u.takeHandedOn) u).handedRows = 0 := by
    induction l with
    | nil => exact fun u few => Nat.le_zero.1 few
    | cons x rest ih =>
      intro u few
      have fewer := u.handedRows_takeHandedOn
      rw [List.length_cons] at few
      exact ih u.takeHandedOn (by omega)
  have none : s.takeAllHandedOn.handedRows = 0 := taken _ s (by simpa using s.handedRows_le)
  cases h : s.takeAllHandedOn.owed.exchange with
  | nil => rfl
  | cons x rest => cases x <;> simp [handedRows, h, HandedOn.rows] at none

/-- Claims and requests are no insertions. -/
theorem State.insertions_takeHandedOn (s : State) : s.takeHandedOn.owed.insertions = s.owed.insertions := by
  unfold takeHandedOn
  split
  · rfl
  · rename_i sender p rest _
    have claimed := congrArg Owed.insertions ((s.withOwed { s.owed with exchange := rest }).owed_applyClaim sender .remote p)
    split <;> rename_i answer <;> rw [answer] at claimed <;> exact claimed
  · simp

@[simp] theorem State.insertions_takeAllHandedOn (s : State) : s.takeAllHandedOn.owed.insertions = s.owed.insertions :=
  List.foldlRecOn (motive := fun u : State => u.owed.insertions = s.owed.insertions) _ _ rfl fun u same _ _ =>
    u.insertions_takeHandedOn.trans same

/-! ### The operations -/

/-- STOP and a duplicate number are void where the station does not use the line (R73, R88, R89). -/
theorem State.enterStopped_of_inactive {s : State} (cause : Cause) (inactive : ¬ s.active = true) : s.enterStopped cause = s := by
  unfold enterStopped
  unfold State.active at inactive
  cases h : s.member.state <;> simp_all

namespace State.NothingHanded

variable {s t : State}

/-- A verdict taken is no longer handed over (R66). -/
theorem takeVerdict (none : s.NothingHanded) (v : Verdict) : (s.takeVerdict v).NothingHanded := by
  have left (cause : Cause) : (s.teardownToListen cause).NothingHanded := by
    obtain ⟨_, _, _, _, _, _, _, _, owed, _⟩ := s.teardownToListen_blocks cause
    obtain ⟨insertions, verdict, exchange⟩ := none
    unfold NothingHanded
    rw [owed]
    exact ⟨by simp [insertions], verdict, exchange⟩
  rcases v.effect_cases s.member.state with ⟨rfl, h⟩ | ⟨rfl, h⟩ | ⟨rfl, h⟩ | void
  · rw [takeVerdict_join h]
    exact none
  · rw [takeVerdict_joinFailure h]
    exact left _
  · rw [takeVerdict_split h]
    exact left _
  · rw [takeVerdict_void void]
    exact none

theorem of_takeHandedVerdict (insertions : s.owed.insertions = []) (exchange : s.owed.exchange = []) :
    s.takeHandedVerdict.NothingHanded := by
  unfold State.takeHandedVerdict
  split
  · rename_i verdict
    exact ⟨insertions, verdict, exchange⟩
  · rename_i h _
    have dropped : (s.dropVerdict h.turn).NothingHanded := ⟨insertions, rfl, exchange⟩
    unfold NothingHanded
    rw [owed_lineErrors]
    exact dropped.takeVerdict _

section

variable (none : s.NothingHanded)

include none

theorem of_owed (same : t.owed = s.owed := by simp) : t.NothingHanded := by
  unfold NothingHanded
  rw [same]
  exact none

/-- A boundary taken whole takes its own verdict. -/
theorem boundaryOwed (turn : LineTurn) : (s.boundaryOwed turn).NothingHanded := by
  obtain ⟨insertions, _, exchange⟩ := id none
  unfold State.boundaryOwed State.boundary
  split
  · exact of_takeHandedVerdict (by simp [insertions]) (by simp [exchange])
  · exact none

theorem fireOwed : s.fireOwed.NothingHanded := by
  unfold State.fireOwed State.fireDue
  split
  · exact none
  split
  · exact List.foldlRecOn _ _ (show NothingHanded (State.withSched _ _) from none) fun _ none _ _ => none.of_owed
  · exact none

theorem foundOwed : s.foundOwed.NothingHanded := by
  unfold State.foundOwed
  split <;> exact none

/-! An edge whose insertions are taken at once leaves none (R165). -/

theorem reportNotSent (earlier : Nat) (kind : FrameKind) (n : Fin 16) : (s.reportNotSent earlier kind n).NothingHanded := by
  have atOnce : s.owed.insertions.length ≤ earlier := by rw [none.1]; exact Nat.zero_le _
  rw [State.reportNotSent, if_pos atOnce]
  exact none

theorem publish (earlier : Nat) (n : Fin 16) (x : ReflexEntry) (stamp : Time) : (s.publish earlier n x stamp).NothingHanded := by
  have asked : NothingHanded (s.enqueue (.fresh (.event x.selector x.input x.edge stamp s.cap.eventCounter) false (some n))).1 :=
    none.of_owed
  unfold State.publish
  split <;> rename_i answer <;> rw [answer] at asked
  · exact asked
  · exact asked.reportNotSent _ _ _
  · exact asked

theorem reflexPost (earlier : Nat) (n : Fin 16) (x : ReflexEntry) (stamp : Time) :
    (s.reflexPost earlier n x stamp).NothingHanded := by
  have asked : NothingHanded (s.enqueue (.fresh (.action (s.reflexAction x stamp)) true (some n))).1 := none.of_owed
  unfold State.reflexPost
  split <;> rename_i answer <;> rw [answer] at asked
  · exact asked
  · exact asked.reportNotSent _ _ _
  · exact asked

theorem reflexLocal (x : ReflexEntry) (stamp : Time) : (s.reflexLocal true x stamp).NothingHanded := by
  obtain ⟨_, verdict, exchange⟩ := none
  exact ⟨State.insertions_insertHandedOver _, by simp [verdict], by simp [exchange]⟩

theorem reflex (earlier : Nat) (n : Fin 16) (input : Fin 8) (edge : EdgeDir) (stamp : Time) :
    (s.reflex earlier true n input edge stamp).NothingHanded := by
  unfold State.reflex
  dsimp only
  split
  · split
    · exact none.publish _ _ _ _
    · exact none.reflexPost _ _ _ _
    · exact none.reflexLocal _ _
  · exact none

theorem takeEdge (input : Fin 8) (edge : EdgeDir) (first : SampleRecord) : (s.takeEdge true input edge first).NothingHanded := by
  have entered (body : LogBody) : (s.enterLog body).1.NothingHanded := none.of_owed
  unfold State.takeEdge
  dsimp only
  split
  · split
    · exact List.foldlRecOn _ _ (entered _) fun _ none n _ => reflex none _ n _ _ _
    · exact entered _
  · exact none

theorem qualify (input : Fin 8) : (s.qualify true input).NothingHanded := by
  have taken (cap : CaptureUnit) : (s.withCap cap).NothingHanded := none
  unfold State.qualify
  split
  · exact none
  dsimp only
  split
  · exact none
  split
  · exact (taken _).takeEdge _ _ _
  · exact none

/-! What enters STOPPED or LISTEN leaves nothing new. -/

theorem enterStopped (cause : Cause) : (s.enterStopped cause).NothingHanded := by
  obtain ⟨insertions, verdict, exchange⟩ := id none
  by_cases active : s.active = true
  · obtain ⟨_, _, _, _, _, _, _, owed⟩ := State.enterStopped_stops cause active
    unfold NothingHanded
    rw [owed]
    exact ⟨by simp [insertions], verdict, exchange⟩
  · rw [State.enterStopped_of_inactive cause active]
    exact none

end

end State.NothingHanded

/-! ### The commands -/

/-- A command ends in its answer (R172), and hands nothing over to be taken later. -/
def State.Answers (s : State) (c : Command) (t : State) : Prop :=
  ∃ u code data, t = State.answer u c code data ∧ (s.NothingHanded → u.NothingHanded)

namespace State.Answers

variable {s : State} {c : Command}

theorem of_answer {u : State} {code : RespCode} {data : List Byte} (kept : s.NothingHanded → u.NothingHanded := by exact id) :
    s.Answers c (u.answer c code data) := ⟨u, code, data, rfl, kept⟩

theorem guarded {own : State → State} (answers : s.Answers c (own s)) : s.Answers c (s.guarded c own) := by
  unfold State.guarded
  split
  · exact answers
  · exact of_answer

theorem sendCommand (p : Payload) : s.Answers c (s.sendCommand c p) := of_answer fun none => none.of_owed (s.owed_enqueue _)

end State.Answers

/-- Every path of every command ends in its answer. -/
theorem State.run_answers (s : State) (c : Command) : s.Answers c (s.run c) := by
  cases c with
  | nop | status | readPeers =>
    simp only [run, runNop, runStatus, runReadPeers]
    exact .guarded .of_answer
  | stop =>
    simp only [run, runStop]
    exact .guarded (.of_answer fun none => none.enterStopped .stop)
  | snapshot =>
    simp only [run, runSnapshot]
    exact .guarded (.of_answer fun none => none.of_owed (s.owed_enterLog _))
  | start =>
    simp only [run, runStart]
    refine .guarded (.of_answer fun none => ?_)
    split <;> exact none
  | configure block =>
    simp only [run, runConfigure]
    refine .guarded ?_
    split <;> exact .of_answer
  | post scope fields =>
    simp only [run, runPost]
    refine .guarded ?_
    split
    · exact .of_answer
    split
    · exact .of_answer
    split
    · exact .of_answer fun none => none.of_owed (s.owed_insert _)
    · exact .sendCommand _
  | amend scope selector serial new =>
    simp only [run, runAmend]
    refine .guarded ?_
    split
    · exact .of_answer
    split
    · exact .of_answer fun none => none.of_owed (s.owed_amendEntry _ _)
    · exact .sendCommand _
  | cancel scope selector serial =>
    simp only [run, runCancel]
    refine .guarded ?_
    split
    · exact .of_answer
    split
    · exact .of_answer fun none => none.of_owed (s.owed_cancelEntry _)
    · exact .sendCommand _
  | find origin serial =>
    simp only [run, runFind]
    refine .guarded ?_
    split
    · exact .of_answer
    split <;> exact .of_answer
  | readLog count =>
    simp only [run, runReadLog]
    refine .guarded ?_
    split <;> exact .of_answer
  | readReports count =>
    simp only [run, runReadReports]
    refine .guarded ?_
    split <;> exact .of_answer
  | drive line kind =>
    simp only [run, runDrive]
    refine .guarded ?_
    split
    · exact .of_answer
    split <;> exact .of_answer

/-! ### What is left of the last tick -/

section

variable (s : State)

theorem State.work_beforeDue : s.beforeDue.port.work = s.port.work := by
  have kept {f : State → Fin 8 → State} (each : ∀ u i, (f u i).port.work = u.port.work) (l : List (Fin 8)) (u : State) :
      (l.foldl f u).port.work = u.port.work :=
    List.foldlRecOn (motive := fun v : State => v.port.work = u.port.work) _ _ rfl fun v same i _ => (each v i).trans same
  unfold beforeDue
  generalize List.finRange 8 = each
  rw [work_foundOwed, kept fun u i => u.work_qualify true i, work_boundaryOwed, work_fireOwed, kept fun u l => by simp]
  simp

theorem State.nothingHanded_beforeDue : s.beforeDue.NothingHanded := by
  unfold beforeDue
  generalize List.finRange 8 = each
  have taken : s.insertHandedOver.takeAllHandedOn.takeHandedVerdict.NothingHanded := .of_takeHandedVerdict (by simp) (by simp)
  have pulses := List.foldlRecOn each _ taken fun _ none line _ => none.of_owed (State.owed_endPulse _ line)
  exact (List.foldlRecOn each _ (pulses.fireOwed.boundaryOwed .first) fun _ none i _ => none.qualify i).foundOwed

/-- A command in its sixteenth tick is executed (R172). -/
theorem State.settle_of_last {c : Command} (work : s.port.work = .current c 16) : s.settle = s.beforeDue.run c := by
  rw [settle_eq_beforeDue, runDue, work_beforeDue, work]
  rfl

/-- Otherwise what keeps the port busy is as it was. -/
theorem State.settle_of_early (early : ∀ c n, s.port.work = .current c n → n < 16) : s.settle = s.beforeDue := by
  rw [settle_eq_beforeDue, runDue, work_beforeDue]
  cases work : s.port.work with
  | idle => rfl
  | refused r => rfl
  | current c n => exact if_neg (Nat.not_le.2 (early c n work))

theorem State.nothingHanded_settle : s.settle.NothingHanded := by
  rw [settle_eq_beforeDue, runDue]
  split
  · split
    · obtain ⟨u, code, data, same, kept⟩ := s.beforeDue.run_answers _
      rw [same]
      exact kept s.nothingHanded_beforeDue
    · exact s.nothingHanded_beforeDue
  all_goals exact s.nothingHanded_beforeDue

end

end Sys2Proof.Machine
end

section
/-! PROOFS. The inputs and the service port at a tick (R150, R171, R172). -/

namespace Sys2Proof.Machine

/-! ### The samples of a tick -/

/-- The levels of a tick, at the time that the clock unit offers after its advance (R149, R150). -/
def State.samplesAt (s : State) (levels : BitVec 8) (filters : Vector InputFilter 8) : Vector InputFilter 8 :=
  Vector.ofFn fun i => sampled filters[i] (levels.getLsbD i)
    { ticks := s.tickClock.clock.ticks, cluster := s.tickClock.clock.cluster }

section

variable (s : State) (levels : BitVec 8)

theorem State.cap_tickNow : (s.tickNow levels).cap = { s.cap with filters := s.cap.filters.map (s.samplesAt levels) } := by
  cases h : s.clock.cluster with
  | none =>
    rw [s.tickNow_of_untimed levels h, cap_tickPort]
    rfl
  | some c =>
    rw [s.tickNow_of_timed levels h, cap_tickPort]
    simp [tickInputs]
    rfl

theorem State.pins_tickNow : (s.tickNow levels).pins = levels := by
  cases h : s.clock.cluster with
  | none => rw [s.tickNow_of_untimed levels h, pins_tickPort]; rfl
  | some c => rw [s.tickNow_of_timed levels h, pins_tickPort]; rfl

/-- The service port at a tick takes part in nothing else of it. -/
theorem State.port_tickNow : (s.tickNow levels).port = s.tickPort.port := by
  have same (u : State) (port : u.port = s.port) : u.tickPort.port = s.tickPort.port := by
    unfold tickPort respond
    rw [port]
    cases s.port.work <;> simp [port]
  cases h : s.clock.cluster with
  | none => rw [s.tickNow_of_untimed levels h, same _ (by simp)]
  | some c => rw [s.tickNow_of_timed levels h, same _ (by simp)]

/-- A tick hands nothing over. -/
theorem State.NothingHanded.tickNow {s : State} (none : s.NothingHanded) (levels : BitVec 8) : (s.tickNow levels).NothingHanded := by
  unfold NothingHanded
  cases h : s.clock.cluster with
  | none =>
    rw [s.owed_tickNow_of_untimed levels h]
    exact none
  | some c =>
    rw [s.owed_tickNow_of_timed levels h]
    exact none

end

/-- One sample of an input, by its level and the run so far (R150). -/
theorem State.sampled_cases (f : InputFilter) (level : Bool) (now : SampleRecord) :
    (level = f.level → sampled f level now = { level := f.level, run := 0, first := none })
    ∧ (level ≠ f.level → f.run = 0 → sampled f level now = { level := f.level, run := 1, first := some now })
    ∧ (level ≠ f.level → f.run ≠ 0 → sampled f level now = { level := f.level, run := f.run + 1, first := f.first }) := by
  refine ⟨fun same => ?_, fun other first => ?_, fun other later => ?_⟩
  · simp [sampled, same]
  · simp [sampled, other, first]
  · simp [sampled, other, later]

/-- Settles O7: the tick after what the last one left, by the stages of `State.tickNow`. -/
theorem inputsAndPortAtTick : Obligations.InputsAndPortAtTick := by
  intro s levels wait
  have left := s.nothingHanded_settle
  have early := s.settle_of_early
  have last := fun c => s.settle_of_last (c := c)
  have busy := s.work_beforeDue
  rw [exec_tick, ← s.settle_eq_afterLeft wait]
  dsimp only
  generalize s.settle = u at left early last
  refine ⟨_, rfl, u.pins_tickNow levels, ?_, fun still => ?_, fun f runs => ?_, fun idle => ?_, fun r refused => ?_,
    fun c n current few => ?_, fun c current => ?_, left.tickNow levels⟩
  · rw [u.cap_tickNow levels]
  · rw [u.cap_tickNow levels, still]
    rfl
  · refine ⟨u.samplesAt levels f, by rw [u.cap_tickNow levels, runs]; rfl, fun i => ?_⟩
    rw [State.clock_tickNow]
    have sample : (u.samplesAt levels f)[i] = State.sampled f[i] (levels.getLsbD i)
        { ticks := u.tickClock.clock.ticks, cluster := u.tickClock.clock.cluster } := by simp [State.samplesAt]
    rw [sample]
    exact State.sampled_cases _ _ _
  · rw [u.port_tickNow levels]
    simp [State.tickPort, idle]
  · have work : u.port.work = .refused r := by rw [early (by simp [refused]), busy, refused]
    rw [u.port_tickNow levels]
    simp [State.tickPort, State.respond, work]
  · have work : u.port.work = .current c n := by
      rw [early fun d m held => (PortWork.current.inj (current.symm.trans held)).2 ▸ few, busy, current]
    rw [u.port_tickNow levels]
    simp [State.tickPort, work]
  · obtain ⟨v, code, data, answers, _⟩ := s.beforeDue.run_answers c
    have ended : u.port.work = .idle := by rw [last c current, answers]; rfl
    have port : (u.tickNow levels).port = u.port := by rw [u.port_tickNow levels]; simp [State.tickPort, ended]
    rw [port]
    refine ⟨ended, ?_⟩
    rw [last c current, answers]
    exact decide_eq_true rfl

end Sys2Proof.Machine
end

section
/-! PROOFS. The correction of an evaluation (R57, R58), its hand-over to the clock at a boundary (R41, R66), the join test (R63, R64), and
the record that a beacon sets (R55). -/

namespace Sys2Proof.Machine

/-! ### The correction -/

/-- The largest of a list and a first value is in it and no value lies above it. -/
theorem foldl_max_eq {l : List Int} {a largest : Int} (held : largest ∈ a :: l) (most : ∀ x ∈ a :: l, x ≤ largest) :
    l.foldl max a = largest := by
  have := List.max?_eq_some_iff.2 ⟨held, most⟩
  rwa [List.max?_cons', Option.some.injEq] at this

theorem foldl_min_eq {l : List Int} {a smallest : Int} (held : smallest ∈ a :: l) (least : ∀ x ∈ a :: l, smallest ≤ x) :
    l.foldl min a = smallest := by
  have := List.min?_eq_some_iff.2 ⟨held, least⟩
  rwa [List.min?_cons', Option.some.injEq] at this

/-- With three values or more, this station's 0 among them, one largest and one smallest are left out (R58). -/
theorem rawCorrection_trimmed {offsets : List Int} {largest smallest : Int} (three : 2 ≤ offsets.length)
    (largestHeld : largest ∈ 0 :: offsets) (most : ∀ x ∈ 0 :: offsets, x ≤ largest)
    (smallestHeld : smallest ∈ 0 :: offsets) (least : ∀ x ∈ 0 :: offsets, smallest ≤ x) :
    rawCorrection offsets = (offsets.sum - largest - smallest).tdiv (offsets.length - 1) := by
  unfold rawCorrection
  dsimp only
  rw [if_neg (by omega), foldl_max_eq largestHeld most, foldl_min_eq smallestHeld least]
  congr 1
  omega

/-- The applied correction is the raw one within the max step, and the step's end on the raw one's side beyond it (R58). -/
theorem appliedCorrection_cases (maxStep : Nat) (raw : Int) :
    (raw.natAbs ≤ maxStep → appliedCorrection maxStep raw = raw)
    ∧ (maxStep < raw → appliedCorrection maxStep raw = maxStep)
    ∧ (raw < -(maxStep : Int) → appliedCorrection maxStep raw = -(maxStep : Int)) := by
  unfold appliedCorrection
  omega

/-! ### A boundary that hands over no departure -/

/-- The verdict of such a boundary makes at most a change of the station state, so that the blocks are as the evaluation left them. -/
theorem State.boundary_frame_of_stays {s : State} {turn : LineTurn} (stays : s.verdict = .none ∨ s.verdict = .join) :
    (s.boundary turn).clock = (s.evaluation turn).clock ∧ (s.boundary turn).sync = (s.evaluation turn).sync
    ∧ (s.boundary turn).owed = { s.owed with boundary := false, verdict := none } ∧ (s.boundary turn).sched = s.sched
    ∧ (s.boundary turn).out = s.out ∧ (s.boundary turn).cap = s.cap
    ∧ (s.boundary turn).port =
        { s.port with reports := (s.boundary turn).port.reports, attn := (s.boundary turn).port.attn } := by
  have port := ServicePort.eq_of_frame (p := (s.boundary turn).port) (q := s.port) (by simp [boundary]) (by simp [boundary])
    (by simp [boundary]) (by simp [boundary])
  have clock : (s.evaluated turn).clock = (s.evaluation turn).clock := rfl
  refine ⟨?_, ?_, ?_, ?_, ?_, ?_, port⟩
  all_goals
    rw [boundary_eq]
    rcases s.takeVerdict_evaluated_cases turn with ⟨_, e⟩ | ⟨_, _, e⟩ | ⟨_, which, _, _⟩
    · simp [e, clock]
    · simp [e, clock]
    · rcases stays with h | h <;> simp [h] at which

/-- Settles O9: the sets by `sortsByBound`, the correction by its arithmetic, the hand-over by `State.clock_evaluation`. -/
theorem correction : Obligations.Correction := by
  refine ⟨sortsByBound, fun offsets few => if_pos few, fun offsets largest smallest => rawCorrection_trimmed,
    appliedCorrection_cases, fun s turn owed valid state stays => ?_⟩
  obtain ⟨clock, _, taken, sched, out, cap, port⟩ := State.boundary_frame_of_stays (turn := turn) stays
  obtain ⟨line, _⟩ := s.boundary_taken turn
  obtain ⟨whole, _⟩ := exec_roundBoundary_meets turn owed state
  refine ⟨_, whole, ?_, line, taken, sched, out, by simp [State.boundary], cap, by simp [State.boundary],
    by simp [State.boundary], port⟩
  rw [clock, s.clock_evaluation turn valid]
  rfl

/-! ### The join test -/

section

variable {s : State}

theorem State.joinTest_iff : s.joinTest = true ↔
    stationsWhere s.sync.peers (·.inBound s.config.outlierBound.toNat) ≠ []
    ∧ (rawCorrection (inBoundOffsets s.config.outlierBound.toNat s.sync.peers)).natAbs ≤ s.config.syncBound.toNat := by
  unfold joinTest evaluatedRaw
  rw [Bool.and_eq_true, decide_eq_true_iff]
  simp

/-- A record whose fresh beacon is that of a MEMBER (R64). -/
theorem PeerRecord.any_freshBeacon_iff (r : PeerRecord) : r.freshBeacon.any (·.body.member) = true ↔
    r.fresh = true ∧ r.state ≠ .self ∧ r.beacon.any (·.body.member) = true := by
  by_cases other : r.fresh = true ∧ r.state ≠ .self
  · obtain ⟨fresh, other⟩ := other
    simp [freshBeacon, fresh, other]
  · have none : r.freshBeacon = none := if_neg (by simpa using other)
    rw [none]
    exact ⟨nofun, fun ⟨fresh, foreign, _⟩ => absurd ⟨fresh, foreign⟩ other⟩

theorem State.heardMember_iff : s.heardMember = true ↔ ∃ i : Fin 16, (s.sync.peers[i]).fresh = true
    ∧ (s.sync.peers[i]).state ≠ .self ∧ (s.sync.peers[i]).beacon.any (·.body.member) = true := by
  have any : s.heardMember = s.sync.peers.toList.any fun r => r.freshBeacon.any (·.body.member) := by
    unfold heardMember
    congr 1
    funext r
    cases r.freshBeacon <;> rfl
  rw [any, List.any_eq_not_all_not, Bool.not_eq_true', ← Bool.not_eq_true, all_toList_iff]
  simp only [← PeerRecord.any_freshBeacon_iff]
  simp

/-- The rounds without a fresh beacon of a MEMBER, this one included (R64). -/
def State.silentRounds (s : State) : Nat := if s.heardMember then 0 else s.sync.noFresh + 1

/-- The verdict in JOINING (R63, R64). -/
theorem State.verdict_of_joining (h : s.member.state = .joining) : s.verdict =
    if s.joinTest then .join
    else if 2 * s.config.listenRounds ≤ s.sync.joinRounds + 1 ∨ s.config.lostLimit ≤ s.silentRounds then .joinFailure
    else .none := by
  simp [verdict, evaluatedCounts, h, silentRounds]
  rfl

theorem State.evaluatedCounts_of_joining (h : s.member.state = .joining) :
    s.evaluatedCounts = (s.sync.splitCount, s.sync.joinRounds + 1, s.silentRounds) := by
  simp [evaluatedCounts, h, silentRounds]

end

/-- Reports among which there is no STATE report. -/
theorem not_state_of_stateDetails_eq_nil {l : List Report} (none : stateDetails l = []) :
    ∀ r ∈ l, ∀ old new c, r.detail ≠ .state old new c := by
  intro r held old new c same
  have : r.detail ∈ stateDetails l := List.mem_filter.2 ⟨List.mem_map_of_mem held, by rw [same]; rfl⟩
  rw [none] at this
  cases this

/-- The reports of a join, around its STATE report (R75, R83). -/
theorem State.reports_boundary_of_join {s : State} {turn : LineTurn} (joins : s.verdict = .join) :
    ∃ before after : List Report,
      (s.boundary turn).port.reports = (before ++ [s.stamped (.state .joining .member .joined)] ++ after).foldl arrive s.port.reports
      ∧ ∀ r ∈ before ++ after, ∀ old new c, r.detail ≠ .state old new c := by
  refine ⟨s.errorReports .first turn ++ s.peerReports s.evaluatedPeers ++ s.aloneReports s.evaluatedPeers
      ++ s.errorReports .middle turn, s.errorReports .last turn, ?_, not_state_of_stateDetails_eq_nil (by simp)⟩
  rw [s.reports_boundary turn, changeReports_of_stays (.inr joins), if_pos joins]
  rfl

/-- Settles O13: the three verdicts in JOINING, and what a boundary makes of each. -/
theorem joinTest : Obligations.JoinTest := by
  refine ⟨sortsByBound, fun s turn owed joining => ?_⟩
  obtain ⟨line, _⟩ := s.boundary_taken turn
  obtain ⟨whole, _⟩ := exec_roundBoundary_meets turn owed (.inl joining)
  have silent : (if ∃ i : Fin 16, (s.sync.peers[i]).fresh = true ∧ (s.sync.peers[i]).state ≠ .self
      ∧ (s.sync.peers[i]).beacon.any (·.body.member) = true then 0 else s.sync.noFresh + 1) = s.silentRounds := by
    unfold State.silentRounds
    simp only [State.heardMember_iff]
  have verdict := State.verdict_of_joining joining
  have counts := State.evaluatedCounts_of_joining joining
  dsimp only
  rw [← State.joinTest_iff, silent]
  refine ⟨_, whole, by rw [line], fun passes => ?_, fun failed limit => ?_, fun failed below => ?_⟩
  · have joins : s.verdict = .join := by rw [verdict, if_pos passes]
    obtain ⟨state, cause, _⟩ := State.boundary_of_verdict (turn := turn) (.inr (.inl ⟨joins, rfl, rfl⟩))
    obtain ⟨clock, sync, _, sched, out, cap, _⟩ := State.boundary_frame_of_stays (turn := turn) (.inr joins)
    refine ⟨state, cause, by simp [clock], by simp [clock], sched, ?_, cap, out, State.reports_boundary_of_join joins⟩
    simp [sync, counts]
  · have fails : s.verdict = .joinFailure := by rw [verdict, if_neg failed, if_pos limit]
    obtain ⟨state, cause, _⟩ := State.boundary_of_verdict (turn := turn) (.inr (.inr ⟨fails, rfl, rfl⟩))
    exact ⟨state, cause⟩
  · have stays : s.verdict = .none := by rw [verdict, if_neg failed, if_neg below]
    obtain ⟨state, cause, _⟩ := State.boundary_of_none (turn := turn) stays
    obtain ⟨_, sync, _, sched, _⟩ := State.boundary_frame_of_stays (turn := turn) (.inl stays)
    exact ⟨state.trans joining, cause, by simp [sync, counts], by simp [sync, counts], sched⟩

/-! ### A recorded beacon -/

/-- Settles O27: the frame is valid in WAIT, and in JOINING and MEMBER a beacon with a cluster stamp is recorded. -/
theorem beaconReceipt : Obligations.BeaconReceipt := by
  intro s f event samples sender time body sof of receives frame record valid state other
  obtain ⟨atOnce, took⟩ := exec_frameCompletion_receive of receives frame
  obtain ⟨run, handed⟩ := State.receive_beacon atOnce valid other
  rw [handed, record] at took
  refine ⟨_, took, ?_⟩
  generalize hl : ({ s.line with receiver := .wait, sof := none, frame := none, dominantRun := run, recessiveRun := 0 } : LineUnit) = l
  have taken : (s.withLine l).takeBeacon sender time body (some sof) = (s.withLine l).recordBeacon sender time body (some sof) := by
    rcases state with h | h <;> simp [State.takeBeacon, h]
  rw [taken]
  subst hl
  cases stamp : sof.clusterStamp with
  | none =>
    have discarded (u : State) : u.recordBeacon sender time body (some sof) = u := by simp [State.recordBeacon, stamp]
    rw [discarded]
    exact ⟨rfl, rfl, rfl, fun _ => rfl, nofun⟩
  | some c =>
    have recorded (u : State) : u.recordBeacon sender time body (some sof) = u.withSync { u.sync with
        peers := u.sync.peers.set sender { u.sync.peers[sender] with
          fresh := true
          beacon := some { offset := time + u.config.linkDelay.zeroExtend 32 - c, body := body } } } := by
      simp [State.recordBeacon, stamp]
    rw [recorded]
    refine ⟨rfl, rfl, rfl, nofun, fun stamp same => ?_⟩
    obtain rfl := Option.some.inj same
    exact ⟨Vector.getElem_set_self _, fun i => getElem_set_other _ _⟩

end Sys2Proof.Machine
end

section
/-! PROOFS. FIND and READ_PEERS (R68, R118, R176): the entry found, and the data bytes (R186, R188, log 23). -/

namespace Sys2Proof.Machine

/-! ### Bytes by their fields -/

theorem peerHead_eq (station : Station) (state : PeerState) :
    inBits 0 station ||| inBits 4 state.code = .ofNat 8 (station.val + 16 * state.code) := by
  revert station
  cases state <;> decide

theorem freshByte_eq (fresh : Bool) : flagBit 0 fresh = .ofNat 8 (if fresh then 1 else 0) := by
  revert fresh
  decide

theorem peerFlags_eq (fresh member alone : Bool) : flagBit 0 fresh ||| flagBit 1 true ||| flagBit 2 member ||| flagBit 3 alone
    = .ofNat 8 ((if fresh then 1 else 0) + 2 + 4 * (if member then 1 else 0) + 8 * (if alone then 1 else 0)) := by
  revert fresh member alone
  decide

theorem entryFlags_eq (width repeats pending : Bool) : flagBit 0 width ||| flagBit 1 repeats ||| flagBit 2 pending
    = .ofNat 8 ((if width then 1 else 0) + 2 * (if repeats then 1 else 0) + 4 * (if pending then 1 else 0)) := by
  revert width repeats pending
  decide

/-- An entry is sent with the control byte of its action, whatever id that has (R186). -/
theorem entryControl_eq (e : Entry) : entryControl e = .ofNat 8 (e.line.val + 8 * e.kind.code + 32 * (if e.notify then 1 else 0)
    + 64 * (if e.rep.isSome then 1 else 0)) :=
  controlByte_eq { selector := 0, serial := 0, due := e.due, line := e.line, kind := e.kind, notify := e.notify, width := e.width,
                   rep := e.rep }

/-- The ten bytes of a peer record (R188), those of its beacon fields 0 where it holds none. -/
theorem PeerRecord.bytes_eq (r : PeerRecord) (station : Station) : r.bytes station =
    .ofNat 8 (station.val + 16 * r.state.code)
      :: (r.beacon.elim [.ofNat 8 (if r.fresh then 1 else 0), 0, 0, 0, 0, 0, 0, 0] fun b =>
          .ofNat 8 ((if r.fresh then 1 else 0) + 2 + 4 * (if b.body.member then 1 else 0) + 8 * (if b.body.alone then 1 else 0))
            :: timeBytes b.offset ++ b.body.count :: halfBytes b.body.bitmap)
      ++ [.ofNat 8 r.missed] := by
  unfold bytes
  dsimp only
  rw [peerHead_eq]
  cases r.beacon with
  | none =>
    rw [freshByte_eq]
    rfl
  | some b =>
    dsimp only
    rw [peerFlags_eq]
    simp [byteOf]

theorem PeerRecord.length_bytes (r : PeerRecord) (station : Station) : (r.bytes station).length = 10 := by
  rw [bytes_eq]
  cases r.beacon <;> simp [timeBytes, halfBytes]

theorem length_peersData (peers : Vector PeerRecord 16) : (peersData peers).length = 160 := by
  simp [peersData, List.length_flatMap, PeerRecord.length_bytes]

/-! ### The entry that FIND names -/

/-- The origin of a FIND below 16 is a station number (R176). -/
theorem named_iff {origin : Byte} (station : origin.toNat < 16) (serial : Half) (e : Entry) :
    decide (e.id = { origin := stationIn origin, serial := serial }) = true ↔
      e.id.origin.val = origin.toNat ∧ e.id.serial = serial := by
  rw [decide_eq_true_iff, ActionId.mk.injEq, Fin.ext_iff, stationIn_val, Nat.mod_eq_of_lt station]

/-- The first entry that satisfies a test is found, at its place. -/
theorem find_first {test : Entry → Bool} {before after : List Entry} {e : Entry} (first : ∀ x ∈ before, ¬ test x = true)
    (here : test e = true) :
    (before ++ e :: after).find? test = some e ∧ (before ++ e :: after).findIdx test = before.length := by
  constructor
  · rw [List.find?_append, List.find?_eq_none.2 first, List.find?_cons_of_pos here]
    rfl
  · rw [List.findIdx_append, List.findIdx_eq_length_of_false fun x held => Bool.eq_false_iff.2 (first x held)]
    simp [List.findIdx_cons, here]

section

variable {s : State} {origin : Byte} {serial : Half}

theorem State.runFind_eq : s.runFind origin serial =
    if 16 ≤ origin.toNat then s.answer (.find origin serial) .badParam []
    else
      (s.sched.queue.find? fun x => decide (x.id = { origin := stationIn origin, serial := serial })).elim
        (s.answer (.find origin serial) .notFound []) fun e => s.answer (.find origin serial) .ok
          (findData (s.sched.queue.findIdx (fun x => decide (x.id = { origin := stationIn origin, serial := serial })) + 1) e) := by
  unfold runFind
  rw [guarded_of_allowed _ rfl]
  split
  · rfl
  · dsimp only
    split <;> rename_i h <;> rw [h] <;> rfl

theorem State.runFind_absent (station : origin.toNat < 16)
    (absent : ∀ x ∈ s.sched.queue, ¬ (x.id.origin.val = origin.toNat ∧ x.id.serial = serial)) :
    s.runFind origin serial = s.answer (.find origin serial) .notFound [] := by
  have none : (s.sched.queue.find? fun x => decide (x.id = { origin := stationIn origin, serial := serial })) = .none :=
    List.find?_eq_none.2 fun x held => (named_iff station serial x).not.2 (absent x held)
  rw [runFind_eq, if_neg (Nat.not_le.2 station), none]
  rfl

/-- The first entry of the id is found, its position counted from 1 (R118). -/
theorem State.runFind_found {before after : List Entry} {e : Entry} (station : origin.toNat < 16)
    (queue : s.sched.queue = before ++ e :: after) (origin' : e.id.origin.val = origin.toNat) (serial' : e.id.serial = serial)
    (first : ∀ x ∈ before, ¬ (x.id.origin.val = origin.toNat ∧ x.id.serial = serial)) :
    s.runFind origin serial = s.answer (.find origin serial) .ok (findData (before.length + 1) e) := by
  obtain ⟨found, place⟩ := find_first (after := after) (fun x held => (named_iff station serial x).not.2 (first x held))
    ((named_iff station serial e).2 ⟨origin', serial'⟩)
  rw [runFind_eq, if_neg (Nat.not_le.2 station), queue, found, place]
  rfl

end

/-- Settles O45: the entry by `State.runFind_found`, the data by the layouts of an entry and of a peer record. -/
theorem findAndReadPeers : Obligations.FindAndReadPeers := by
  intro s n least most answered byte flag half word record repeated found
  have records (i : Fin 16) : (s.sync.peers[i]).bytes i = record i := by
    dsimp only [record]
    generalize s.sync.peers[i] = r
    rw [r.bytes_eq i]
    cases r.beacon with
    | none => rfl
    | some b =>
      rw [Option.elim_some, timeBytes_eq, halfBytes_eq]
      rfl
  have table : peersData s.sync.peers = (List.finRange 16).flatMap record := List.flatMap_congr fun i _ => records i
  have optional (r : Option Repeat) : optionalRepeat r = repeated r := by
    cases r with
    | none => rfl
    | some x =>
      show timeBytes x.period ++ [x.count] = _
      rw [timeBytes_eq]
  have entry (place : Nat) (e : Entry) : findData place e = found place e := by
    rw [findData, entryControl_eq, entryFlags_eq, timeBytes_eq, halfBytes_eq, optional, optional]
    rfl
  refine ⟨fun work => ⟨?_, by rw [← table, length_peersData]⟩, fun origin serial work => ?_⟩
  · have row : exec .readPeers s = .next s.runReadPeers := s.exec_row .readPeers n work least most
    rw [row, State.runReadPeers, State.guarded_of_allowed _ rfl, table]
    rfl
  · have row : exec .find s = .next (s.runFind origin serial) := s.exec_row (.find origin serial) n work least most
    rw [row]
    refine ⟨fun foreign => ?_, fun station absent => ?_, fun station before e after queue origin' serial' first => ?_⟩
    · rw [State.runFind_eq, if_pos foreign]
      rfl
    · rw [State.runFind_absent station absent]
      rfl
    · rw [State.runFind_found station queue origin' serial' first, entry]
      rfl

end Sys2Proof.Machine
end

section
/-! PROOFS. START from READY and from STOPPED (R77, R78), and a void frame that is still in SEND over it (R17, R34, R35). -/

namespace Sys2Proof.Machine

/-! ### START -/

/-- The line unit at START: a frame in SEND stays, and the receiver goes to SEEK after it; otherwise it goes there at once (R17). -/
theorem LineUnit.started_of_send {l : LineUnit} (sends : l.receiver = .send) :
    l.started = { l with errors := 0, muted := false, afterSend := .seek } := if_pos sends

theorem LineUnit.receiver_started {l : LineUnit} (idle : l.receiver ≠ .send) : l.started.receiver = .seek := by simp [started, idle]

/-- No receive error is counted and the station is not muted, whether or not a frame is in SEND (R17). -/
theorem LineUnit.started_counts (l : LineUnit) : l.started.errors = 0 ∧ l.started.muted = false := by
  unfold started
  split <;> exact ⟨rfl, rfl⟩

/-- The peer table at START: the own record SELF, the others ABSENT (R67). -/
theorem SyncUnit.getElem_started (number : Station) (i : Fin 16) : (started number).peers[i]
    = { PeerRecord.cleared with state := if i = number then .self else .absent } := by
  have record : (started number).peers[i] = if i = number then { PeerRecord.cleared with state := .self } else .cleared := by
    simp [started]
  rw [record]
  by_cases own : i = number
  · simp [own]
  · simp [own, PeerRecord.cleared]

section

variable {s : State} {c : ConfigBlock}

/-- What the entry into LISTEN at a START leaves of each block (R77, R78). -/
theorem State.enterListen_blocks (s : State) :
    s.enterListen.member = { s.member with state := .listen, alone := true, cause := some .start }
    ∧ s.enterListen.clock = { ticks := s.clock.ticks, cluster := none, slew := 0, spacing := 0, listen := some 0 }
    ∧ s.enterListen.line = s.line.started
    ∧ s.enterListen.cont = s.cont.silent
    ∧ s.enterListen.sync = .started s.number
    ∧ s.enterListen.cap = { s.cap with filters := some (baseline s.pins) }
    ∧ s.enterListen.port.reports = arrive s.port.reports
        { detail := .state s.member.state .listen .start, stamp := s.clock.ticks, unsynced := true } :=
  ⟨rfl, rfl, rfl, rfl, rfl, rfl, rfl⟩

/-- The blocks as they take their fields at a START (R77), the windows and the lines given. -/
def State.taking (s : State) (c : ConfigBlock) (exch : ExchangeUnit) (out : OutputUnit) : State :=
  (((s.withCfg (some c)).withMember { s.member with number := some c.number }).withExch exch).withOut out

/-- The output unit at a START in READY: the enabled lines at their default levels (R129). -/
def OutputUnit.started (c : ConfigBlock) : OutputUnit where
  lines := Vector.ofFn fun i => if c.enableMask.getLsbD i then .driven (c.defaults.getLsbD i) none else .released

/-- START in READY forms the windows and drives the enabled lines at their default levels (R77, R129, R133). -/
theorem State.runStart_of_ready (ready : s.member.state = .ready) (held : s.port.block = some c) :
    s.runStart = (s.taking c { windows := windowsOf c } (.started c)).enterListen.answer .start .ok [] := by
  rw [runStart, guarded_of_allowed _ (by simp [Command.allowedIn, ready]), ready, held]
  rfl

/-- START in STOPPED takes no field anew (R78). -/
theorem State.runStart_of_stopped (stopped : s.member.state = .stopped) (taken : s.cfg = some c)
    (number : s.member.number = some c.number) : s.runStart = (s.taking c s.exch s.out).enterListen.answer .start .ok [] := by
  have same : s.taking c s.exch s.out = s := by
    unfold taking
    rw [← taken, ← number]
    rfl
  rw [same, runStart, guarded_of_allowed _ (by simp [Command.allowedIn, stopped]), stopped]

/-- START enters LISTEN from the state that has taken its fields: those of the held block in READY, those it has in STOPPED. -/
theorem State.runStart_enters (idle : (s.member.state = .ready ∧ s.port.block = some c)
      ∨ (s.member.state = .stopped ∧ s.cfg = some c ∧ s.member.number = some c.number)) :
    ∃ exch out, s.runStart = (s.taking c exch out).enterListen.answer .start .ok []
      ∧ (s.member.state = .ready → exch = { windows := windowsOf c } ∧ out = .started c)
      ∧ (s.member.state = .stopped → exch = s.exch ∧ out = s.out) := by
  rcases idle with ⟨ready, held⟩ | ⟨stopped, taken, number⟩
  · exact ⟨_, _, runStart_of_ready ready held, fun _ => ⟨rfl, rfl⟩, fun stopped => by simp [ready] at stopped⟩
  · exact ⟨_, _, runStart_of_stopped stopped taken number, fun ready => by simp [stopped] at ready, fun _ => ⟨rfl, rfl⟩⟩

/-! ### A void frame in SEND that a START has left there -/

section

variable {before after : List TxRecord} {r : TxRecord} (sends : s.line.receiver = .send) (seeks : s.line.afterSend = .seek)
  (queue : s.cont.queue = before ++ r :: after) (sent : r.inTransmission = true) (void : r.isVoid = true)
  (others : ∀ x ∈ before ++ after, x.inTransmission = false)

include sends seeks queue sent void others

/-- Its success removes the record in silence, and the receiver goes to SEEK (R17, R34). -/
theorem exec_transmissionSuccess_void : exec .transmissionSuccess s
    = .next ((s.endSend .seek 0).withCont { s.cont with queue := before ++ after }) := by
  rw [exec_transmissionSuccess_send sends, seeks, State.transmissionSucceeded_eq (s := s.endSend _ 0) queue sent others, void]
  rfl

/-- So does its mismatch, and the dominant run that the mismatching bit belongs to goes on (R13, R17, R34). -/
theorem exec_readbackMismatch_void {bit : Nat} (recessive : (bitsOfFrame s.line.sending)[bit]? = some true) :
    exec (.readbackMismatch bit) s
    = .next ((s.endSend .seek (runAfter s.line.dominantRun ((bitsOfFrame s.line.sending).take bit ++ [false]))).withCont
      { s.cont with queue := before ++ after }) := by
  rw [exec_readbackMismatch_send sends recessive, State.transmissionFailed_void queue sent others void, State.afterMismatch]
  simp only [State.line_withCont, seeks]
  rfl

end

end

/-! ### The statement -/

/-- Settles O39: START enters LISTEN by `State.runStart_enters`, with the blocks of `State.enterListen_blocks`; a void frame in SEND by its
two outcomes. -/
theorem start : Obligations.Start := by
  intro s n c least most work idle
  obtain ⟨exch, out, runs, fromReady, fromStopped⟩ := State.runStart_enters idle
  have row : exec .start s = .next s.runStart := s.exec_row .start n work least most
  rw [runs] at row
  obtain ⟨member, clock, line, cont, sync, cap, reports⟩ := (s.taking c exch out).enterListen_blocks
  refine ⟨_, row, member, rfl, clock, fun other => ?seeks, ?errors, ?muted, fun sends => ?stays, cont, fun i => ?peer, rfl,
    fun ready l => ?line, fun stopped => ?_, fun ready => ?windows, cap, reports, rfl, rfl, rfl, rfl, rfl⟩
  case seeks => exact LineUnit.receiver_started other
  case errors => exact s.line.started_counts.1
  case muted => exact s.line.started_counts.2
  case stays =>
    have left : ((s.taking c exch out).enterListen.answer .start .ok []).line
        = { s.line with errors := 0, muted := false, afterSend := .seek } := LineUnit.started_of_send sends
    refine ⟨left, fun before r after queue sent void others => ?_⟩
    have held : ((s.taking c exch out).enterListen.answer .start .ok []).cont.queue = before ++ r :: after := queue
    dsimp only
    generalize (s.taking c exch out).enterListen.answer .start .ok [] = t at left held ⊢
    obtain ⟨sends', seeks, bits, run⟩ : t.line.receiver = .send ∧ t.line.afterSend = .seek ∧ t.line.sending = s.line.sending
        ∧ t.line.dominantRun = s.line.dominantRun := by rw [left]; exact ⟨sends, rfl, rfl, rfl⟩
    rw [← bits, ← run]
    exact ⟨exec_transmissionSuccess_void sends' seeks held sent void others,
      fun bit recessive => exec_readbackMismatch_void sends' seeks held sent void others recessive⟩
  case peer => exact SyncUnit.getElem_started c.number i
  case line =>
    obtain ⟨_, rfl⟩ := fromReady ready
    exact Vector.getElem_ofFn _
  case windows =>
    obtain ⟨rfl, _⟩ := fromReady ready
    rfl
  obtain ⟨rfl, rfl⟩ := fromStopped stopped
  exact ⟨rfl, rfl⟩

end Sys2Proof.Machine
end

section
/-! PROOFS. CONFIGURE (R76, R178): which blocks are in range, and what their bytes say (R187). -/

namespace Sys2Proof.Machine

/-! ### Fields of a byte -/

theorem toNat_halfAt (l : List Byte) (i : Nat) : (halfAt l i).toNat = (byteAt l i).toNat + 256 * (byteAt l (i + 1)).toNat :=
  (append_eq_iff_toNat (halfAt l i) (byteAt l i) (byteAt l (i + 1))).1 rfl

theorem eighthIn_val (b : Byte) : (eighthIn b).val = b.toNat % 8 := by simp [eighthIn]

section

variable (b : Byte)

theorem rateOf_eq : rateOf b = if b.toNat < 4 then
    some (if b.toNat = 0 then .kbit125 else if b.toNat = 1 then .kbit250 else if b.toNat = 2 then .kbit500 else .kbit1000) else none := by
  unfold rateOf
  generalize b.toNat = n
  match n with
  | 0 | 1 | 2 | 3 => rfl
  | n + 4 => simp

theorem kindIn_eq : kindIn b = (if b.toNat / 8 % 4 = 0 then .set else if b.toNat / 8 % 4 = 1 then .clear
    else if b.toNat / 8 % 4 = 2 then .toggle else .pulse) := by
  have code : field b 3 2 = b.toNat / 8 % 4 := field_eq b 3 2
  unfold kindIn
  rw [code]
  generalize b.toNat / 8 % 4 = n
  match n with
  | 0 | 1 | 2 => rfl
  | n + 3 => simp

theorem inputModeIn_eq : inputModeIn b = (if b.toNat / 16 % 4 = 0 then .off else if b.toNat / 16 % 4 = 1 then .rising
    else if b.toNat / 16 % 4 = 2 then .falling else .both) := by
  have code : field b 4 2 = b.toNat / 16 % 4 := field_eq b 4 2
  unfold inputModeIn
  rw [code]
  generalize b.toNat / 16 % 4 = n
  match n with
  | 0 | 1 | 2 => rfl
  | n + 3 => simp

theorem effectIn_eq : effectIn b = if b.toNat / 16 % 4 = 3 then none else
    some (if b.toNat / 16 % 4 = 0 then .publish else if b.toNat / 16 % 4 = 1 then .post else .toSelf) := by
  have code : field b 4 2 = b.toNat / 16 % 4 := field_eq b 4 2
  have most : b.toNat / 16 % 4 < 4 := Nat.mod_lt _ (by omega)
  unfold effectIn
  rw [code]
  generalize b.toNat / 16 % 4 = n at most
  match n, most with
  | 0, _ | 1, _ | 2, _ | 3, _ => rfl

theorem isSome_effectIn_iff : (effectIn b).isSome = true ↔ b.toNat / 16 % 4 ≠ 3 := by
  rw [effectIn_eq]
  split <;> simp_all

/-- A choice by a bit of a byte. -/
theorem ite_getLsbD {α : Type} (n : Nat) (x y : α) : (if b.getLsbD n then x else y) = if b.toNat / 2 ^ n % 2 = 0 then y else x := by
  rw [getLsbD_eq_decide]
  rcases Nat.mod_two_eq_zero_or_one (b.toNat / 2 ^ n) with h | h <;> simp [h]

theorem edgeIn_eq : edgeIn b = if b.toNat / 8 % 2 = 0 then .rise else .fall := ite_getLsbD b 3 _ _

end

/-! ### The fields of a block -/

section

variable {l : List Byte} {c : ConfigBlock}

/-- The fields that the bytes of a block give are in range, the number, the rate and the effects apart (R178). -/
def BytesInRange (l : List Byte) : Prop :=
  10 ≤ (byteAt l 2).toNat ∧ (byteAt l 2).toNat ≤ 20 ∧ 1 ≤ (byteAt l 4).toNat ∧ (byteAt l 4).toNat ≤ (byteAt l 5).toNat
  ∧ 16 ≤ (byteAt l 6).toNat + 256 * (byteAt l 7).toNat ∧ (byteAt l 4).toNat ≤ (byteAt l 6).toNat + 256 * (byteAt l 7).toNat
  ∧ 2 ≤ (byteAt l 8).toNat ∧ (byteAt l 8).toNat ≤ 15 ∧ 2 ≤ (byteAt l 9).toNat ∧ (byteAt l 9).toNat ≤ 15
  ∧ 2 ≤ (byteAt l 10).toNat ∧ (byteAt l 10).toNat ≤ 7 ∧ 1 ≤ (byteAt l 15).toNat ∧ (byteAt l 15).toNat ≤ 64
  ∧ ∀ n < 8, (byteAt l (16 + n)).toNat % 16 ≠ 0

/-- That the largest step is at least 1 follows from the sync bound below it. -/
theorem inRange_blockOf_iff (l : List Byte) (number : Station) (rate : LineRate) :
    (blockOf l number rate).inRange = true ↔ BytesInRange l := by
  have filters : (blockOf l number rate).inputs.toList.all (fun i => 1 ≤ i.filter && i.filter ≤ 15) = true
      ↔ ∀ n < 8, (byteAt l (16 + n)).toNat % 16 ≠ 0 := by
    have inputs : (blockOf l number rate).inputs.toList = List.ofFn fun i : Fin 8 => inputAt l i := Vector.toList_ofFn
    rw [inputs, List.all_eq_true, List.forall_mem_ofFn_iff, Fin.forall_iff]
    refine forall₂_congr fun n _ => ?_
    have most : (byteAt l (16 + n)).toNat % 16 < 16 := Nat.mod_lt _ (by omega)
    simp only [inputAt, field_eq, Nat.pow_zero, Nat.div_one, Nat.reducePow, Bool.and_eq_true, decide_eq_true_eq]
    omega
  unfold ConfigBlock.inRange
  simp only [Bool.and_eq_true, decide_eq_true_eq, filters]
  simp only [blockOf, toNat_halfAt, and_assoc, BytesInRange]
  have maxStep : 1 ≤ (byteAt l 4).toNat → (byteAt l 4).toNat ≤ (byteAt l 5).toNat → 1 ≤ (byteAt l 5).toNat := Nat.le_trans
  tauto

/-- A block is accepted when its number and its rate name values, its fields are in range and every effect names a value (R178, R187). -/
theorem configOf_eq_some_iff : configOf l = some c ↔ ∃ (number : Station) (rate : LineRate), (byteAt l 0).toNat = number.val
    ∧ rateOf (byteAt l 1) = some rate ∧ (blockOf l number rate).inRange = true
    ∧ (∀ n < 16, (byteAt l (44 + 8 * n)).toNat / 16 % 4 ≠ 3) ∧ blockOf l number rate = c := by
  have effects : (List.range 16).all (fun n => (effectIn (byteAt l (44 + 8 * n))).isSome) = true
      ↔ ∀ n < 16, (byteAt l (44 + 8 * n)).toNat / 16 % 4 ≠ 3 := by
    simp only [List.all_eq_true, List.mem_range, isSome_effectIn_iff]
  rw [← effects]
  unfold configOf
  cases rateOf (byteAt l 1) with
  | none => simp
  | some rate =>
    dsimp only
    by_cases low : (byteAt l 0).toNat < 16
    · rw [dif_pos low, Option.ite_none_right_eq_some, Bool.and_eq_true_iff]
      constructor
      · rintro ⟨⟨inRange, named⟩, same⟩
        exact ⟨⟨_, low⟩, rate, rfl, rfl, inRange, named, Option.some.inj same⟩
      · rintro ⟨number, _, same, ⟨rfl⟩, inRange, named, rfl⟩
        obtain rfl : ⟨_, low⟩ = number := Fin.ext same
        exact ⟨⟨inRange, named⟩, rfl⟩
    · rw [dif_neg low]
      refine iff_of_false nofun ?_
      rintro ⟨number, _, same, _⟩
      exact low (same ▸ number.isLt)

/-- Which blocks are accepted, by their bytes (R178, R187). -/
theorem isSome_configOf_iff : (configOf l).isSome = true ↔ (byteAt l 0).toNat < 16 ∧ (byteAt l 1).toNat < 4
    ∧ BytesInRange l ∧ ∀ n < 16, (byteAt l (44 + 8 * n)).toNat / 16 % 4 ≠ 3 := by
  simp only [Option.isSome_iff_exists, configOf_eq_some_iff]
  constructor
  · rintro ⟨c, number, rate, same, named, inRange, effects, _⟩
    rw [rateOf_eq] at named
    obtain ⟨known, _⟩ := Option.ite_none_right_eq_some.1 named
    exact ⟨same ▸ number.isLt, known, (inRange_blockOf_iff l number rate).1 inRange, effects⟩
  · rintro ⟨low, named, inRange, effects⟩
    exact ⟨_, ⟨_, low⟩, _, rfl, by rw [rateOf_eq, if_pos named], (inRange_blockOf_iff _ _ _).2 inRange, effects, rfl⟩

/-! What the bytes of a block say (R187). -/

theorem blockOf_entries (l : List Byte) (number : Station) (rate : LineRate) :
    (∀ n : Fin 8, (blockOf l number rate).inputs[n] = inputAt l n) ∧ (∀ n : Fin 4, (blockOf l number rate).windows[n] = windowAt l n)
    ∧ ∀ n : Fin 16, (blockOf l number rate).reflexes[n] = reflexAt l n :=
  ⟨fun _ => Vector.getElem_ofFn _, fun _ => Vector.getElem_ofFn _, fun _ => Vector.getElem_ofFn _⟩

theorem inputAt_fields (l : List Byte) (n : Nat) : (inputAt l n).filter = (byteAt l (16 + n)).toNat % 16
    ∧ (inputAt l n).mode = (let m := (byteAt l (16 + n)).toNat / 16 % 4
        if m = 0 then .off else if m = 1 then .rising else if m = 2 then .falling else .both) :=
  ⟨by simp [inputAt, field_eq], inputModeIn_eq _⟩

theorem windowAt_fields (l : List Byte) (n : Nat) :
    (windowAt l n).value.toNat = (byteAt l (24 + 5 * n)).toNat + 256 * (byteAt l (24 + 5 * n + 1)).toNat
    ∧ (windowAt l n).mask.toNat = (byteAt l (26 + 5 * n)).toNat + 256 * (byteAt l (26 + 5 * n + 1)).toNat
    ∧ (windowAt l n).enabled = decide ((byteAt l (28 + 5 * n)).toNat % 2 = 1) :=
  ⟨toNat_halfAt _ _, toNat_halfAt _ _, by rw [windowAt, getLsbD_eq_decide, Nat.pow_zero, Nat.div_one]⟩

theorem reflexAt_fields {l : List Byte} {n : Nat} (named : (byteAt l (44 + 8 * n)).toNat / 16 % 4 ≠ 3) :
    let b (i : Nat) : Nat := (byteAt l i).toNat
    let i := 44 + 8 * n
    (reflexAt l n).enabled = decide (128 ≤ b i) ∧ (reflexAt l n).input.val = b i % 8
    ∧ (reflexAt l n).edge = (if b i / 8 % 2 = 0 then .rise else .fall)
    ∧ (reflexAt l n).effect = (if b i / 16 % 4 = 0 then .publish else if b i / 16 % 4 = 1 then .post else .toSelf)
    ∧ (reflexAt l n).selector.toNat = b (i + 1) + 256 * b (i + 1 + 1) ∧ (reflexAt l n).delay.toNat = b (i + 3) + 256 * b (i + 3 + 1)
    ∧ (reflexAt l n).line.val = b (i + 5) % 8
    ∧ (reflexAt l n).kind = (if b (i + 5) / 8 % 4 = 0 then .set else if b (i + 5) / 8 % 4 = 1 then .clear
        else if b (i + 5) / 8 % 4 = 2 then .toggle else .pulse)
    ∧ (reflexAt l n).width.toNat = b (i + 6) + 256 * b (i + 6 + 1) := by
  have top : (byteAt l (44 + 8 * n)).getLsbD 7 = decide (128 ≤ (byteAt l (44 + 8 * n)).toNat) := by
    have := (byteAt l (44 + 8 * n)).isLt
    rw [getLsbD_eq_decide, decide_eq_decide]
    omega
  refine ⟨top, eighthIn_val _, edgeIn_eq _, ?_, toNat_halfAt _ _, toNat_halfAt _ _, eighthIn_val _, kindIn_eq _, toNat_halfAt _ _⟩
  show (effectIn (byteAt l (44 + 8 * n))).getD .publish = _
  rw [effectIn_eq, if_neg named]
  rfl

end

/-! ### CONFIGURE -/

section

variable {s : State} {block : List Byte} (idle : s.member.state = .unconfigured ∨ s.member.state = .ready)

include idle

/-- CONFIGURE holds a block that is accepted, and makes the station READY (R76, R178). -/
theorem State.runConfigure_of_accepted {c : ConfigBlock} (accepted : configOf block = some c) : s.runConfigure block
    = ((s.withPort { s.port with block := some c }).withMember { s.member with state := .ready }).answer (.configure block) .ok [] := by
  rw [runConfigure, guarded_of_allowed _ (by simpa [Command.allowedIn] using idle), accepted]

/-- CONFIGURE answers BAD_PARAM to a block that is not accepted, and the held block stays (R76, R178). -/
theorem State.runConfigure_of_refused (refused : configOf block = none) :
    s.runConfigure block = s.answer (.configure block) .badParam [] := by
  rw [runConfigure, guarded_of_allowed _ (by simpa [Command.allowedIn] using idle), refused]

end

/-- Settles O38: the blocks that are accepted by `isSome_configOf_iff`, what their bytes say by `configOf_eq_some_iff` and the fields
of each part, the command by its two outcomes. -/
theorem configure : Obligations.Configure := by
  refine ⟨fun _ _ => inRange_of_configOf, fun l => ⟨?accepted, fun c judged => ?fields⟩, fun s n block least most work idle => ?command⟩
  case accepted =>
    refine isSome_configOf_iff.trans ?_
    simp only [BytesInRange, and_assoc]
    rfl
  case fields =>
    obtain ⟨number, rate, same, named, _, effects, rfl⟩ := configOf_eq_some_iff.1 judged
    rw [rateOf_eq] at named
    obtain ⟨_, coded⟩ := Option.ite_none_right_eq_some.1 named
    obtain ⟨inputs, windows, reflexes⟩ := blockOf_entries l number rate
    refine ⟨same.symm, (Option.some.inj coded).symm, rfl, rfl, rfl, rfl, toNat_halfAt l 6, rfl, rfl, rfl, ?late, ?log, rfl, rfl, rfl,
      rfl, fun n => ?inputs, fun n => ?windows, fun n => ?reflexes⟩
    case late => exact (ite_getLsbD (byteAt l 11) 0 _ _).trans (by rw [Nat.pow_zero, Nat.div_one]; rfl)
    case log => exact ite_getLsbD (byteAt l 11) 1 _ _
    case inputs =>
      rw [inputs]
      exact inputAt_fields l n
    case windows =>
      rw [windows]
      exact windowAt_fields l n
    case reflexes =>
      dsimp only
      rw [reflexes]
      exact reflexAt_fields (effects n n.isLt)
  case command =>
    have row : exec .configure s = .next (s.runConfigure block) := s.exec_row (.configure block) n work least most
    rw [row]
    exact ⟨fun c accepted => congrArg _ (State.runConfigure_of_accepted idle accepted),
      fun refused => congrArg _ (State.runConfigure_of_refused idle refused)⟩

end Sys2Proof.Machine
end

section
/-! PROOFS. HARDWARE_RESET, and the invariants at reset (R93). -/

namespace Sys2Proof.Machine

/-- Every peer record is cleared at reset (R67). -/
theorem State.peers_reset (i : Fin 16) : reset.sync.peers[i] = PeerRecord.cleared := Vector.getElem_replicate _

/-- Every line is released at reset (R132). -/
theorem State.lines_reset (i : Fin 8) : reset.out.lines[i] = .released := Vector.getElem_replicate _

/-- Settles O4: the state after the row is `State.reset` but for the pins and the queue of commands. -/
theorem hardwareResetState : Obligations.HardwareResetState := by
  intro s
  exact ⟨(State.reset.withPins s.pins).withPending s.pending, rfl, rfl, rfl, rfl, rfl, rfl, rfl, rfl, rfl, rfl, State.peers_reset,
    rfl, rfl, rfl, rfl, State.lines_reset, rfl, rfl, rfl, rfl, rfl⟩

/-- No line is driven at reset (R120, R124). -/
theorem State.outputsOk_reset : reset.OutputsOk := fun i => by
  rw [lines_reset]
  exact ⟨fun _ => rfl, fun _ => rfl⟩

/-- Settles O59: every queue is empty, every record cleared and every line released at reset; what the phase fixes and the bounds of the
configuration are `State.phaseOk_reset` and `State.configOk_reset`. -/
theorem invariantsAtReset : Obligations.InvariantsAtReset := by
  refine ⟨?reports, ?transmit, ?log, ?attn, State.phaseOk_reset 0, State.configOk_reset 0, State.outputsOk_reset, State.PeersOk.reset 0,
    ?actions, State.slewOk_of_zero rfl rfl, ?wait, ?sequences⟩
  case reports => exact ⟨Nat.zero_le _, List.forall_mem_nil _⟩
  case transmit => exact ⟨Nat.zero_le _, Nat.zero_le _, Nat.zero_le _, List.forall_mem_nil _⟩
  case log => exact ⟨Nat.zero_le _, rfl, rfl⟩
  case attn => rfl
  case actions => exact ⟨Nat.zero_le _, .nil, .nil, List.forall_mem_nil _, rfl⟩
  case wait => exact nofun
  case sequences => exact ⟨.nil, List.forall_mem_nil _⟩

end Sys2Proof.Machine
end

section
/-! PROOFS. The step of a repeating entry and its skips (R106, R107). -/

namespace Sys2Proof.Machine

/-! ### Times and multiples of a period -/

theorem isAfter_iff (a b : Time) : isAfter a b = true ↔ 1 ≤ dueKey b a ∧ dueKey b a < 2 ^ 31 := by
  have zero : a - b = 0 ↔ a = b := sub_eq_zero
  rw [isAfter, dueKey, Bool.and_eq_true, decide_eq_true_iff, decide_eq_true_iff, ne_eq, ← zero, ← BitVec.toNat_inj,
    Nat.one_le_iff_ne_zero]
  rfl

/-- A time that is neither before another one nor that time is after it. -/
theorem isAfter_of_not_isBefore {a b : Time} (past : isBefore a b = false) (other : a ≠ b) : isAfter a b = true := by
  have near : ¬ 2 ^ 31 ≤ (a - b).toNat := of_decide_eq_false past
  rw [isAfter, decide_eq_true other, decide_eq_true (Nat.not_le.1 near)]
  rfl

theorem not_isBefore_of_isAfter {a b : Time} (after : isAfter a b = true) : isBefore a b = false := by
  obtain ⟨_, near⟩ := (isAfter_iff a b).1 after
  exact decide_eq_false (Nat.not_le.2 near)

/-- A time before another one that is moved on stays before it until the move makes up for the lateness. -/
theorem isBefore_add_iff {next now q : Time} (late : isBefore next now = true) (near : q.toNat < (now - next).toNat + 2 ^ 31) :
    isBefore (next + q) now = true ↔ q.toNat < (now - next).toNat := by
  simp only [isBefore, decide_eq_true_eq] at late ⊢
  bv_omega

theorem toNat_mul_ofNat {period : Time} {n : Nat} (fits : period.toNat * n < 2 ^ 32) :
    (period * BitVec.ofNat 32 n).toNat = period.toNat * n := by
  rw [BitVec.toNat_mul, BitVec.toNat_ofNat, Nat.mul_mod_mod, Nat.mod_eq_of_lt fits]

/-! ### The skips -/

/-- How late a next due time is, if it is before now (R107). -/
def latenessOf (next now : Time) : Nat := if isBefore next now then (now - next).toNat else 0

/-- The least number of skips that bring a next due time to now or past it (R107). -/
def skipsTo (next now period : Time) : Nat := (latenessOf next now + (period.toNat - 1)) / period.toNat

theorem skipMissed_eq (next now period : Time) (count : Byte) : skipMissed next now period count =
    if count = 0 then (some (next + period * BitVec.ofNat 32 (skipsTo next now period), 0), skipsTo next now period)
    else if skipsTo next now period < count.toNat then
      (some (next + period * BitVec.ofNat 32 (skipsTo next now period), count - BitVec.ofNat 8 (skipsTo next now period)),
        skipsTo next now period)
    else (none, count.toNat) := rfl

section

variable {next now period : Time}

theorem skipsTo_of_not_before (past : isBefore next now = false) : skipsTo next now period = 0 := by
  simp only [skipsTo, latenessOf, past, Bool.false_eq_true, if_false, Nat.zero_add]
  rcases Nat.eq_zero_or_pos period.toNat with zero | pos
  · rw [zero, Nat.div_zero]
  · exact Nat.div_eq_of_lt (by omega)

/-- The skips make up for the lateness, by less than a period. -/
theorem skipsTo_bounds (pos : 0 < period.toNat) : latenessOf next now ≤ period.toNat * skipsTo next now period
    ∧ period.toNat * skipsTo next now period < latenessOf next now + period.toNat := by
  have parts := Nat.div_add_mod (latenessOf next now + (period.toNat - 1)) period.toNat
  have rest := Nat.mod_lt (latenessOf next now + (period.toNat - 1)) pos
  unfold skipsTo
  omega

/-- Every occurrence before the last skip is before now (R107). -/
theorem isBefore_of_lt_skipsTo {n : Nat} (pos : 0 < period.toNat) (few : n < skipsTo next now period) :
    isBefore (next + period * BitVec.ofNat 32 n) now = true := by
  have late : isBefore next now = true := by
    by_contra past
    rw [skipsTo_of_not_before (Bool.eq_false_iff.2 past)] at few
    exact absurd few (Nat.not_lt_zero n)
  have lateness : latenessOf next now = (now - next).toNat := if_pos late
  obtain ⟨_, bound⟩ := skipsTo_bounds (next := next) (now := now) pos
  have behind : period.toNat * n < (now - next).toNat := by
    have := Nat.mul_le_mul_left period.toNat few
    rw [Nat.mul_succ] at this
    omega
  have := (now - next).isLt
  have product : (period * BitVec.ofNat 32 n).toNat = period.toNat * n := toNat_mul_ofNat (by omega)
  exact (isBefore_add_iff late (by omega)).2 (by omega)

/-- The due time that the skips reach is not before now (R107). -/
theorem not_isBefore_skipsTo (pos : 0 < period.toNat) (short : period.toNat < 2 ^ 31) :
    isBefore (next + period * BitVec.ofNat 32 (skipsTo next now period)) now = false := by
  cases late : isBefore next now with
  | false => simpa [skipsTo_of_not_before late] using late
  | true =>
    have lateness : latenessOf next now = (now - next).toNat := if_pos late
    obtain ⟨reached, bound⟩ := skipsTo_bounds (next := next) (now := now) pos
    have near : (now - next).toNat ≤ 2 ^ 31 := by
      simp only [isBefore, decide_eq_true_eq] at late
      bv_omega
    have product : (period * BitVec.ofNat 32 (skipsTo next now period)).toNat = period.toNat * skipsTo next now period :=
      toNat_mul_ofNat (by omega)
    refine Bool.eq_false_iff.2 fun before => ?_
    have := (isBefore_add_iff late (by omega)).1 before
    omega

end

/-! ### The step -/

/-- The period and count in force: those of an amendment, if one waits (R106). -/
def Entry.inForce (e : Entry) : Option Repeat := e.rep.map e.pendingRep.getD

theorem Entry.inForce_of_not_amended {e : Entry} (pending : e.pendingRep = none) : e.inForce = e.rep := by
  rw [inForce, pending]
  exact Option.map_id'

/-- The count that a firing leaves; 0 is unlimited (R106). -/
def Repeat.left (r : Repeat) : Byte := if r.count = 0 then 0 else r.count - 1

/-- The entry with its next due time and the count left (R106). -/
def Entry.stepped (e : Entry) (r : Repeat) (due : Time) (left : Byte) : Entry :=
  { e with due := due, rep := some { r with count := left }, pendingRep := none }

section

variable {e : Entry} {r : Repeat} {now : Time}

/-- A one-shot entry is gone after its firing (R106). -/
theorem stepEntry_once (once : e.rep = none) : stepEntry e now = (none, 0, none) := by rw [stepEntry, once]

theorem stepEntry_of_inForce (inForce : e.inForce = some r) : stepEntry e now =
    if r.count = 1 then (none, 0, some { left := 0, ended := true })
    else
      let skipped := skipMissed (e.due + r.period) now r.period r.left
      (skipped.1.map fun x => e.stepped r x.1 x.2, skipped.2,
        some (skipped.1.elim { left := 0, ended := true } fun x => { left := x.2, ended := false })) := by
  obtain ⟨held, rep, rfl⟩ := Option.map_eq_some_iff.1 inForce
  rw [stepEntry, rep]
  refine if_congr Iff.rfl rfl ?_
  unfold Repeat.left
  dsimp only
  rcases skipMissed _ _ _ _ with ⟨none | ⟨due, left⟩, skips⟩ <;> rfl

/-- A repeating entry is gone after its last firing (R106). -/
theorem stepEntry_last (inForce : e.inForce = some r) (last : r.count = 1) :
    stepEntry e now = (none, 0, some { left := 0, ended := true }) := by
  rw [stepEntry_of_inForce inForce, if_pos last]

section

variable (inForce : e.inForce = some r) (more : r.count ≠ 1)

include inForce more

/-- Any other repeating entry goes on from the next due time, the occurrences before now skipped (R106, R107). -/
theorem stepEntry_more : stepEntry e now =
    ((skipMissed (e.due + r.period) now r.period r.left).1.map fun x => e.stepped r x.1 x.2,
      (skipMissed (e.due + r.period) now r.period r.left).2,
      some ((skipMissed (e.due + r.period) now r.period r.left).1.elim { left := 0, ended := true }
        fun x => { left := x.2, ended := false })) := by
  rw [stepEntry_of_inForce inForce, if_neg more]

/-- A step whose next due time is not before now skips nothing (R106). -/
theorem stepEntry_inTime (past : isBefore (e.due + r.period) now = false) : stepEntry e now =
    (some (e.stepped r (e.due + r.period) r.left), 0, some { left := r.left, ended := false }) := by
  have none : skipMissed (e.due + r.period) now r.period r.left = (some (e.due + r.period, r.left), 0) := by
    rw [skipMissed_eq, skipsTo_of_not_before past]
    by_cases unlimited : r.left = 0
    · simp [unlimited]
    · have counted : 0 < r.left.toNat := Nat.pos_of_ne_zero fun zero => unlimited (BitVec.toNat_inj.1 zero)
      rw [if_neg unlimited, if_pos counted]
      simp
  rw [stepEntry_more inForce more, none]
  rfl

end

end

/-- The skips of R107: they end the entry at the last occurrence of its count, or stop at the first due time that is not before now, each
counting as one firing. -/
theorem skipMissed_spec {next now period : Time} {count : Byte} (pos : 0 < period.toNat) :
    ((skipMissed next now period count).1 = none → count ≠ 0 ∧ (skipMissed next now period count).2 = count.toNat
      ∧ isBefore (next + period * BitVec.ofNat 32 (count.toNat - 1)) now = true)
    ∧ ∀ due left, (skipMissed next now period count).1 = some (due, left) →
        (skipMissed next now period count).2 = skipsTo next now period
        ∧ due = next + period * BitVec.ofNat 32 (skipsTo next now period)
        ∧ (count = 0 → left = 0) ∧ (count ≠ 0 → left.toNat + skipsTo next now period = count.toNat) := by
  rw [skipMissed_eq]
  by_cases unlimited : count = 0
  · rw [if_pos unlimited]
    refine ⟨nofun, fun due left same => ?_⟩
    obtain ⟨rfl, rfl⟩ := Prod.mk.inj (Option.some.inj same)
    exact ⟨rfl, rfl, fun _ => rfl, fun limited => absurd unlimited limited⟩
  rw [if_neg unlimited]
  have counted : 0 < count.toNat := Nat.pos_of_ne_zero fun zero => unlimited (BitVec.toNat_inj.1 zero)
  by_cases few : skipsTo next now period < count.toNat
  · rw [if_pos few]
    refine ⟨nofun, fun due left same => ?_⟩
    obtain ⟨rfl, rfl⟩ := Prod.mk.inj (Option.some.inj same)
    refine ⟨rfl, rfl, fun zero => absurd zero unlimited, fun _ => ?_⟩
    have := count.isLt
    rw [BitVec.toNat_sub, BitVec.toNat_ofNat]
    omega
  · rw [if_neg few]
    exact ⟨fun _ => ⟨unlimited, rfl, isBefore_of_lt_skipsTo pos (by omega)⟩, nofun⟩

/-- Settles O18: the equations of the step, and the least number of skips by `skipsTo_bounds`. -/
theorem stepAndSkip : Obligations.StepAndSkip := by
  refine ⟨fun e now p repeats pending => ?amended, fun e now r rep pending last => ?last, fun e now r rep pending more past => ?inTime,
    fun e now r rep pending more late => ?late, fun next now period count least short => ?skips⟩
  case amended =>
    obtain ⟨held, rep⟩ := Option.isSome_iff_exists.1 repeats
    rw [stepEntry, stepEntry, rep, pending]
    rfl
  case last => exact stepEntry_last ((Entry.inForce_of_not_amended pending).trans rep) last
  case inTime =>
    intro left _
    rw [stepEntry_inTime ((Entry.inForce_of_not_amended pending).trans rep) more past, Entry.stepped, ← pending]
    rfl
  case late =>
    have step := stepEntry_more (now := now) ((Entry.inForce_of_not_amended pending).trans rep) more
    rw [Repeat.left] at step
    refine ⟨fun ended => ?_, fun due left goesOn => ?_⟩
    · rw [step, ended]
      rfl
    · rw [step, goesOn, Option.map_some, Entry.stepped, ← pending]
      rfl
  case skips =>
    have pos : 0 < period.toNat := by omega
    obtain ⟨ends, goesOn⟩ := skipMissed_spec (next := next) (now := now) (count := count) pos
    refine ⟨ends, fun due left same => ?_⟩
    obtain ⟨skips, rfl, unlimited, counted⟩ := goesOn due left same
    rw [skips]
    refine ⟨not_isBefore_skipsTo pos short, rfl, fun some => ?_, unlimited, counted⟩
    obtain ⟨n, more⟩ := Nat.exists_eq_succ_of_ne_zero some
    have back : next + period * BitVec.ofNat 32 (n + 1) - period = next + period * BitVec.ofNat 32 n := by
      rw [BitVec.ofNat_add, BitVec.mul_add, BitVec.mul_one]
      ring
    rw [more, Nat.succ_eq_add_one, back]
    exact isBefore_of_lt_skipsTo pos (by omega)

end Sys2Proof.Machine
end

section
/-! PROOFS. The queue of the scheduler after a firing (R104–R108): what is left of an entry whose periods are in range, and where it
goes. -/

namespace Sys2Proof.Machine

/-! ### What a step leaves -/

theorem State.periodsOk_iff (e : Entry) : periodsOk e = true ↔ (∀ r ∈ e.rep, periodOk r.period = true)
    ∧ (∀ r ∈ e.pendingRep, periodOk r.period = true) ∧ (e.rep = none → e.pendingRep = none) := by
  unfold periodsOk
  cases e.rep <;> cases e.pendingRep <;> simp

/-- The period in force is one that the entry holds. -/
theorem State.periodOk_of_inForce {e : Entry} {r : Repeat} (periods : periodsOk e = true) (inForce : e.inForce = some r) :
    periodOk r.period = true := by
  obtain ⟨own, pending, _⟩ := (periodsOk_iff e).1 periods
  obtain ⟨held, rep, rfl⟩ := Option.map_eq_some_iff.1 inForce
  cases h : e.pendingRep with
  | none => exact own held rep
  | some new => exact pending new h

theorem State.periodsOk_stepped {e : Entry} {r : Repeat} (good : periodOk r.period = true) (due : Time) (left : Byte) :
    periodsOk (e.stepped r due left) = true :=
  (periodsOk_iff _).2 ⟨fun _ same => Option.some.inj same ▸ good, nofun, fun _ => rfl⟩

/-- What a step leaves of an entry goes by its id, holds periods in range and is not due before now; a step of an entry that is due now
leaves it due after now (R106–R108). -/
theorem State.stepEntry_left {e next : Entry} {now : Time} (periods : periodsOk e = true) (left : (stepEntry e now).1 = some next) :
    next.id = e.id ∧ periodsOk next = true ∧ isBefore next.due now = false ∧ (e.due = now → isAfter next.due now = true) := by
  cases inForce : e.inForce with
  | none =>
    rw [stepEntry_once (Option.map_eq_none_iff.1 inForce)] at left
    cases left
  | some r =>
    have good := periodOk_of_inForce periods inForce
    obtain ⟨least, short⟩ := (periodOk_iff _).1 good
    have pos : 0 < r.period.toNat := by omega
    by_cases last : r.count = 1
    · rw [stepEntry_last inForce last] at left
      cases left
    rw [stepEntry_more inForce last] at left
    obtain ⟨⟨due, count⟩, skipped, rfl⟩ := Option.map_eq_some_iff.1 left
    obtain ⟨_, goesOn⟩ := skipMissed_spec (next := e.due + r.period) (now := now) (count := r.left) pos
    obtain ⟨_, rfl, _⟩ := goesOn due count skipped
    refine ⟨rfl, periodsOk_stepped good _ _, not_isBefore_skipsTo pos short, fun dueNow => ?_⟩
    have later : isAfter (now + r.period) now = true := by
      rw [isAfter_iff, dueKey]
      bv_omega
    have none : skipsTo (e.due + r.period) now r.period = 0 := 
      skipsTo_of_not_before (dueNow.symm ▸ not_isBefore_of_isAfter later)
    rw [none, dueNow]
    simpa [Entry.stepped] using later

/-- What is left of a step and is not due now is due after now. -/
theorem State.stepEntry_left_later {e next : Entry} {now : Time} (periods : periodsOk e = true) (left : (stepEntry e now).1 = some next)
    (other : next.due ≠ now) : isAfter next.due now = true := by
  obtain ⟨_, _, past, _⟩ := stepEntry_left periods left
  exact isAfter_of_not_isBefore past other

/-! ### Where it goes -/

section

variable {u : State} {e : Entry} (l : Option (BitVec 32))

/-- A placement depends on the scheduler and on the time that due times are counted from. -/
theorem State.sched_placeEntry_as {v : State} (owed : v.owed = u.owed) (clock : v.clock = u.clock) (sched : v.sched = u.sched)
    (x : Entry) : (v.placeEntry x).sched = (u.placeEntry x).sched := by
  rw [placeEntry_as (u := u) (counter := u.sched.counter) owed clock sched, placeEntry_eq]
  rfl

/-- The scheduler after a firing: the queue stays, or what is left of the entry is placed in it, due after now; the counter moves once more
when that was due now and fired in its turn (R105–R108). -/
theorem State.fire_sched (periods : periodsOk e = true) :
    (u.fire e l).sched = u.sched ∨ (u.fire e l).sched = u.bumpSequence.sched
    ∨ ∃ x : Entry, x.id = e.id ∧ periodsOk x = true ∧ isAfter x.due u.now = true
      ∧ ((u.fire e l).sched = (u.placeEntry x).sched ∨ (u.fire e l).sched = (u.bumpSequence.placeEntry x).sched) := by
  cases left : (stepEntry e u.now).1 with
  | none => exact .inl (by rw [fire_ended left]; simp)
  | some next =>
    obtain ⟨id, good, _⟩ := stepEntry_left periods left
    by_cases due : next.due = u.now
    · rw [fire_again left due]
      cases kept : (stepEntry next u.now).1 with
      | none => exact .inr (.inl rfl)
      | some last =>
        obtain ⟨sameId, lastGood, _, later⟩ := stepEntry_left good kept
        refine .inr (.inr ⟨{ last with sequence := u.sched.counter + 1 }, sameId.trans id, lastGood, later due, .inr ?_⟩)
        exact sched_placeEntry_as (by simp) (by simp) (by simp; rfl) { last with sequence := u.sched.counter + 1 }
    · refine .inr (.inr ⟨next, id, good, stepEntry_left_later periods left due, .inl ?_⟩)
      rw [fire_placed left due]
      exact sched_placeEntry_as (by simp) (by simp) (by simp) next

/-- The action queue after a firing (R108). -/
theorem State.fire_queue (periods : periodsOk e = true) : (u.fire e l).sched.queue = u.sched.queue
    ∨ ∃ x : Entry, x.id = e.id ∧ isAfter x.due u.now = true ∧ (u.fire e l).sched.queue.Perm (x :: u.sched.queue) := by
  rcases fire_sched l periods with same | bumped | ⟨x, id, _, later, placed | placed⟩
  · exact .inl (congrArg Scheduler.queue same)
  · rw [bumped]
    exact .inl rfl
  · rw [placed]
    exact .inr ⟨{ x with sequence := u.sched.counter + 1 }, id, later, placeIn_perm _ _ _⟩
  · rw [placed]
    exact .inr ⟨{ x with sequence := u.bumpSequence.sched.counter + 1 }, id, later, placeIn_perm _ _ _⟩

/-- Firings one after another leave every entry of the queue, and bring in none but what is due after now. -/
theorem State.mem_queue_fireAll (l : List Entry) (periods : ∀ e ∈ l, periodsOk e = true) (s : State) :
    (∀ x ∈ s.sched.queue, x ∈ (l.foldl (fun s e => s.fire e none) s).sched.queue)
    ∧ ∀ x ∈ (l.foldl (fun s e => s.fire e none) s).sched.queue, x ∈ s.sched.queue ∨ isAfter x.due s.now = true := by
  induction l generalizing s with
  | nil => exact ⟨fun _ => id, fun _ => .inl⟩
  | cons e rest ih =>
    obtain ⟨kept, come⟩ := ih (fun x hx => periods x (List.mem_cons_of_mem e hx)) (s.fire e none)
    have now : (s.fire e none).now = s.now := by simp [State.now]
    rw [now] at come
    rcases fire_queue none (periods e List.mem_cons_self) with same | ⟨x, _, later, perm⟩
    · rw [same] at kept come
      exact ⟨kept, come⟩
    · refine ⟨fun y hy => kept y (perm.mem_iff.2 (List.mem_cons_of_mem x hy)), fun y hy => ?_⟩
      rcases come y hy with held | after
      · rcases List.mem_cons.1 (perm.mem_iff.1 held) with rfl | held
        · exact .inr later
        · exact .inl held
      · exact .inr after

end

/-! ### The firing of a tick -/

theorem State.fireOwed_of_member {s : State} {c : Time} (member : s.member.state = .member) (owed : s.owed.fireFrom = some c) :
    s.fireOwed = s.fireDue c := by
  unfold fireOwed
  rw [owed]
  exact if_pos member

/-- The state in which the entries that the advance from `c` has made due have left the queue and nothing more is to be fired (R104). -/
def State.withoutDue (s : State) (c : Time) : State :=
  (s.withOwed { s.owed with fireFrom := none }).withSched { s.sched with queue := s.sched.queue.filter fun e => !dueIn c s.now e }

/-- The entries that leave the queue fire one after another. -/
theorem State.fireDue_eq (s : State) (c : Time) :
    s.fireDue c = (s.sched.queue.filter (dueIn c s.now)).foldl (fun s e => s.fire e none) (s.withoutDue c) := rfl

/-- After the firing of a tick nothing more is to be fired. -/
theorem State.owed_fireDue (s : State) (c : Time) : (s.fireDue c).owed = { s.owed with fireFrom := none } :=
  List.foldlRecOn (motive := fun u : State => u.owed = { s.owed with fireFrom := none }) (s.sched.queue.filter (dueIn c s.now)) _ rfl
    fun u same e _ => (u.owed_fire e none).trans same

/-- The firing of a tick leaves every entry that was not due, and brings in none but what is due after now (R104). -/
theorem State.mem_queue_fireDue {s : State} {c : Time} (periods : ∀ e ∈ s.sched.queue, periodsOk e = true) :
    (∀ x ∈ s.sched.queue, dueIn c s.now x = false → x ∈ (s.fireDue c).sched.queue)
    ∧ ∀ x ∈ (s.fireDue c).sched.queue, dueIn c s.now x = false ∨ isAfter x.due s.now = true := by
  obtain ⟨kept, come⟩ := mem_queue_fireAll (s.sched.queue.filter (dueIn c s.now)) (fun e he => periods e (List.mem_of_mem_filter he))
    (s.withoutDue c)
  refine ⟨fun x hx waits => kept x (List.mem_filter.2 ⟨hx, congrArg not waits⟩), fun x hx => (come x hx).imp_left fun held => ?_⟩
  obtain ⟨_, waits⟩ := List.mem_filter.1 held
  simpa using waits

/-- A time that the tick has just reached is due in it. -/
theorem State.dueIn_now {c now : Time} {e : Entry} (advance : now = c + 1 ∨ now = c + 2) (due : e.due = now) : dueIn c now e = true := by
  have reached : isAfter e.due c = true := by
    rw [isAfter_iff, dueKey, due]
    rcases advance with rfl | rfl <;> bv_omega
  rw [dueIn, reached, due, isAfter_self]
  rfl

/-- An entry that is not due in an advance is as much nearer to the new time as the clock has advanced. -/
theorem State.dueKey_of_not_dueIn {c now : Time} {e : Entry} (advance : now = c + 1 ∨ now = c + 2) (ahead : 1 ≤ dueKey c e.due)
    (near : dueKey c e.due < 2 ^ 31 + 2) (waits : dueIn c now e = false) :
    1 ≤ dueKey now e.due ∧ dueKey c e.due = dueKey now e.due + dueKey c now := by
  have later : dueKey c e.due < 2 ^ 31 → 1 ≤ dueKey now e.due ∧ dueKey now e.due < 2 ^ 31 := fun soon => by
    rw [dueIn, (isAfter_iff _ _).2 ⟨ahead, soon⟩, Bool.true_and, Bool.not_eq_false'] at waits
    exact (isAfter_iff _ _).1 waits
  unfold dueKey at *
  rcases advance with rfl | rfl <;> bv_omega

end Sys2Proof.Machine
end

section
/-! PROOFS. The order of the action queue (R94, R95): what placements, removals, amendments and firings make of it. `State.Orderly` is the
invariant of the queue with a number of placements that the sequence counter has room for. -/

namespace Sys2Proof.Machine

/-! ### An amended entry -/

/-- An entry as an amendment of an id leaves it (R109). -/
def Entry.amendedAt (x : Entry) (id : ActionId) (new : Repeat) : Entry := if x.id = id then { x with pendingRep := some new } else x

section

variable (x : Entry) (id : ActionId) (new : Repeat)

theorem Entry.id_amendedAt : (x.amendedAt id new).id = x.id := by unfold amendedAt; split <;> rfl
theorem Entry.due_amendedAt : (x.amendedAt id new).due = x.due := by unfold amendedAt; split <;> rfl
theorem Entry.sequence_amendedAt : (x.amendedAt id new).sequence = x.sequence := by unfold amendedAt; split <;> rfl

end

/-- A repeating entry holds periods in range after an amendment in range (R109). -/
theorem State.periodsOk_amendedAt {x : Entry} {id : ActionId} {new : Repeat} (periods : periodsOk x = true)
    (good : periodOk new.period = true) (repeats : x.rep ≠ none) : periodsOk (x.amendedAt id new) = true := by
  obtain ⟨own, _, _⟩ := (periodsOk_iff x).1 periods
  unfold Entry.amendedAt
  split
  · exact (periodsOk_iff _).2 ⟨own, fun r pending => Option.some.inj pending ▸ good, fun once => absurd once repeats⟩
  · exact periods

/-! ### The bounds of the queue -/

namespace State

section

variable {s : State}

/-- Cluster time has advanced by at most 2 from the time that due times are counted from (R39, R40). -/
theorem ActionsOk.advance (ok : s.ActionsOk) {c : Time} (owed : s.owed.fireFrom = some c) : s.now = c + 1 ∨ s.now = c + 2 := by
  obtain ⟨_, _, _, _, fired⟩ := ok
  simpa [owed] using fired

/-- An entry due after now lies within the bounds of the queue (R94). -/
theorem ActionsOk.dueKey_of_isAfter (ok : s.ActionsOk) {due : Time} (after : isAfter due s.now = true) :
    1 ≤ dueKey s.orderBase due ∧ dueKey s.orderBase due < 2 ^ 31 + 2 := by
  obtain ⟨ahead, near⟩ := (isAfter_iff _ _).1 after
  unfold orderBase
  cases owed : s.owed.fireFrom with
  | none => exact ⟨ahead, Nat.lt_add_right 2 near⟩
  | some c =>
    rw [Option.getD_some]
    unfold dueKey at *
    rcases ok.advance owed with now | now <;> rw [now] at ahead near <;> bv_omega

/-- The bounds speak of the queue and of the time that it is counted from. -/
theorem ActionsOk.of_base {t : State} (ok : s.ActionsOk) (queue : t.sched.queue = s.sched.queue) (base : t.orderBase = s.orderBase)
    (fired : t.owed.fireFrom.all (fun c => t.now = c + 1 || t.now = c + 2) = true) : t.ActionsOk := by
  obtain ⟨few, ids, order, keys, _⟩ := ok
  unfold ActionsOk
  rw [queue, base]
  exact ⟨few, ids, order, keys, fired⟩

theorem actionsOk_of_nil (queue : s.sched.queue = []) (fired : s.owed.fireFrom = none) : s.ActionsOk := by
  unfold ActionsOk
  rw [queue, fired]
  exact ⟨Nat.zero_le _, .nil, .nil, List.forall_mem_nil _, rfl⟩

/-- Entries that leave the queue break no bound. -/
theorem ActionsOk.sublist (ok : s.ActionsOk) {queue : List Entry} (leaves : queue.Sublist s.sched.queue) :
    (s.withSched { s.sched with queue := queue }).ActionsOk := by
  obtain ⟨few, ids, order, keys, fired⟩ := ok
  exact ⟨leaves.length_le.trans few, ids.sublist (leaves.map _), order.sublist leaves, fun e he => keys e (leaves.subset he), fired⟩

/-- An entry of a new id that is due after now finds its place in a queue with room (R95). -/
theorem ActionsOk.placeEntry (ok : s.ActionsOk) {e : Entry} (after : isAfter e.due s.now = true) (periods : periodsOk e = true)
    (fresh : ∀ x ∈ s.sched.queue, x.id ≠ e.id) (room : s.sched.queue.length < 32) : (s.placeEntry e).ActionsOk := by
  have within := ok.dueKey_of_isAfter after
  obtain ⟨few, ids, order, keys, fired⟩ := ok
  have perm := placeIn_perm s.orderBase { e with sequence := s.sched.counter + 1 } s.sched.queue
  refine ⟨?_, ?_, placeIn_sorted _ order, fun x hx => ?_, fired⟩
  · exact perm.length_eq.trans_le room
  · refine (perm.map Entry.id).nodup_iff.2 (List.nodup_cons.2 ⟨fun held => ?_, ids⟩)
    obtain ⟨x, hx, same⟩ := List.mem_map.1 held
    exact fresh x hx same
  · rcases List.mem_cons.1 (perm.mem_iff.1 hx) with rfl | hx
    · exact ⟨within.1, within.2, periods⟩
    · exact keys x hx

/-- A change of entries that moves no due time and no id. -/
theorem ActionsOk.map (ok : s.ActionsOk) {f : Entry → Entry} (id : ∀ x, (f x).id = x.id) (due : ∀ x, (f x).due = x.due)
    (periods : ∀ x ∈ s.sched.queue, periodsOk (f x) = true) :
    (s.withSched { s.sched with queue := s.sched.queue.map f }).ActionsOk := by
  obtain ⟨few, ids, order, keys, fired⟩ := ok
  refine ⟨(List.length_map f).trans_le few, ?_, ?_, fun x hx => ?_, fired⟩
  · show ((s.sched.queue.map f).map Entry.id).Nodup
    rw [List.map_map]
    exact (List.map_congr_left fun x _ => id x).symm ▸ ids
  · exact List.pairwise_map.2 (order.imp fun {a b} h => by rw [due, due]; exact h)
  · obtain ⟨y, hy, rfl⟩ := List.mem_map.1 hx
    obtain ⟨ahead, near, _⟩ := keys y hy
    rw [due]
    exact ⟨ahead, near, periods y hy⟩

/-- Once the entries that are due have left it, the queue is counted from now (R104). -/
theorem ActionsOk.withoutDue (ok : s.ActionsOk) {c : Time} (owed : s.owed.fireFrom = some c) :
    (s.withoutDue c).ActionsOk := by
  have advance := ok.advance owed
  have base : s.orderBase = c := by rw [orderBase, owed, Option.getD_some]
  have leaves : (s.sched.queue.filter fun e => !dueIn c s.now e).Sublist s.sched.queue := List.filter_sublist
  obtain ⟨few, ids, order, keys, _⟩ := ok
  rw [base] at order keys
  have nearer : ∀ e ∈ s.sched.queue.filter (fun e => !dueIn c s.now e),
      1 ≤ dueKey s.now e.due ∧ dueKey c e.due = dueKey s.now e.due + dueKey c s.now := fun e he => by
    obtain ⟨held, waits⟩ := List.mem_filter.1 he
    obtain ⟨ahead, near, _⟩ := keys e held
    exact dueKey_of_not_dueIn advance ahead near (by simpa using waits)
  refine ⟨leaves.length_le.trans few, ids.sublist (leaves.map _), ?_, fun e he => ?_, rfl⟩
  · refine (order.sublist leaves).imp_of_mem fun {a b} ha hb h => ?_
    obtain ⟨_, keyA⟩ := nearer a ha
    obtain ⟨_, keyB⟩ := nearer b hb
    show dueKey s.now a.due ≤ dueKey s.now b.due
    omega
  · obtain ⟨ahead, key⟩ := nearer e he
    obtain ⟨_, near, periods⟩ := keys e (leaves.subset he)
    exact ⟨ahead, show dueKey s.now e.due < _ by omega, periods⟩

end

/-! ### The sequence order with the bounds -/

/-- What is handed over or handed on and may yet be placed: an insertion, or a claim of the exchange unit. -/
def HandedOn.isClaim : HandedOn → Bool
  | .claim _ _ => true
  | .refusal _ _ => false

/-- The placements that the insertions and claims that wait may make, at most two each (R105, R108). -/
def placementsAhead (s : State) : Nat := 2 * (s.owed.insertions.length + s.owed.exchange.countP HandedOn.isClaim)

/-- The action queue is in bounds, and empty with nothing to fire outside MEMBER; and, in a run in which the insertion sequences are in
order (`ordered`), they stay so for `room` placements beside those that wait. -/
structure Orderly (ordered : Prop) (room : Nat) (s : State) : Prop where
  actions : s.ActionsOk
  idle : s.member.state ≠ .member → s.sched.queue = [] ∧ s.owed.fireFrom = none
  sequences : ordered → room + s.placementsAhead < 2 ^ 32 ∧ s.SequencesOk (room + s.placementsAhead)

namespace Orderly

section

variable {ordered : Prop} {room : Nat} {s t : State}

/-- Less room is asked of fewer placements. -/
theorem mono {less : Nat} (h : less ≤ room) (ok : s.Orderly ordered room) : s.Orderly ordered less where
  actions := ok.actions
  idle := ok.idle
  sequences holds := by
    obtain ⟨small, seqs⟩ := ok.sequences holds
    exact ⟨by omega, seqs.mono (by omega)⟩

/-- The order speaks of the scheduler, cluster time, the station state and what is owed to the scheduler; insertions and claims that no
longer wait leave room. -/
theorem of_owed {more : Nat} (ok : s.Orderly ordered more) (fireFrom : t.owed.fireFrom = s.owed.fireFrom)
    (ahead : room + t.placementsAhead ≤ more + s.placementsAhead) (sched : t.sched = s.sched := by simp)
    (cluster : t.clock.cluster = s.clock.cluster := by simp) (state : t.member.state = s.member.state := by simp) :
    t.Orderly ordered room where
  actions := by
    have now : t.now = s.now := by rw [State.now, cluster]; rfl
    obtain ⟨_, _, _, _, fired⟩ := ok.actions
    exact ok.actions.of_base (by rw [sched]) (by rw [orderBase, fireFrom, now]; rfl) (by rw [fireFrom, now]; exact fired)
  idle := by rw [state, sched, fireFrom]; exact ok.idle
  sequences holds := by
    obtain ⟨small, seqs⟩ := ok.sequences holds
    refine ⟨by omega, ?_⟩
    unfold SequencesOk
    rw [sched]
    exact seqs.mono ahead

theorem of_frame (ok : s.Orderly ordered room) (sched : t.sched = s.sched := by simp)
    (clock : t.clock = s.clock := by simp) (member : t.member = s.member := by simp) (owed : t.owed = s.owed := by simp) :
    t.Orderly ordered room :=
  ok.of_owed (by rw [owed]) (by rw [placementsAhead, owed]; exact le_refl _) sched (by rw [clock]) (by rw [member])

theorem withLine (ok : s.Orderly ordered room) (x : LineUnit) : (s.withLine x).Orderly ordered room := ok.of_frame
theorem withCont (ok : s.Orderly ordered room) (x : Contention) : (s.withCont x).Orderly ordered room := ok.of_frame
theorem withCap (ok : s.Orderly ordered room) (x : CaptureUnit) : (s.withCap x).Orderly ordered room := ok.of_frame
theorem withPort (ok : s.Orderly ordered room) (x : ServicePort) : (s.withPort x).Orderly ordered room := ok.of_frame
theorem withPending (ok : s.Orderly ordered room) (x : List Instr) : (s.withPending x).Orderly ordered room := ok.of_frame

/-- A queue that is empty, with nothing to fire, is in order. -/
theorem of_nil (ok : s.Orderly ordered room) (queue : t.sched.queue = []) (fireFrom : t.owed.fireFrom = none)
    (ahead : t.placementsAhead ≤ s.placementsAhead) : t.Orderly ordered room where
  actions := actionsOk_of_nil queue fireFrom
  idle _ := ⟨queue, fireFrom⟩
  sequences holds := by
    obtain ⟨small, _⟩ := ok.sequences holds
    refine ⟨by omega, ?_⟩
    unfold SequencesOk
    rw [queue]
    exact ⟨.nil, List.forall_mem_nil _⟩

/-- A step of the counter uses one place of the room. -/
theorem bumpSequence (ok : s.Orderly ordered (room + 1)) : s.bumpSequence.Orderly ordered room where
  actions := ok.actions
  idle := ok.idle
  sequences holds := by
    obtain ⟨small, seqs⟩ := ok.sequences holds
    have small : room + s.placementsAhead + 1 < 2 ^ 32 := by omega
    exact ⟨show room + s.placementsAhead < 2 ^ 32 by omega,
      SequencesOk.bumpSequence (room := room + s.placementsAhead) (seqs.mono (by omega))⟩

/-- Entries that leave the queue disturb no order. -/
theorem sublist (ok : s.Orderly ordered room) {queue : List Entry} (leaves : queue.Sublist s.sched.queue) :
    (s.withSched { s.sched with queue := queue }).Orderly ordered room where
  actions := ok.actions.sublist leaves
  idle other := by
    obtain ⟨empty, fired⟩ := ok.idle other
    exact ⟨List.sublist_nil.1 (empty ▸ leaves), fired⟩
  sequences holds := (ok.sequences holds).imp_right (SequencesOk.sublist leaves)

/-- A cancelled or replaced entry leaves the queue (R98, R112). -/
theorem without (ok : s.Orderly ordered room) (id : ActionId) : (s.without id).Orderly ordered room := ok.sublist List.filter_sublist

/-- A placement in MEMBER of an entry with a new id, due after now, uses one place of the room (R95). -/
theorem placeEntry (ok : s.Orderly ordered (room + 1)) (member : s.member.state = .member) {e : Entry}
    (after : isAfter e.due s.now = true) (periods : periodsOk e = true) (fresh : ∀ x ∈ s.sched.queue, x.id ≠ e.id)
    (places : s.sched.queue.length < 32) : (s.placeEntry e).Orderly ordered room where
  actions := ok.actions.placeEntry after periods fresh places
  idle other := absurd member other
  sequences holds := by
    obtain ⟨small, seqs⟩ := ok.sequences holds
    obtain ⟨_, _, order, _⟩ := ok.actions
    have small : room + s.placementsAhead < 2 ^ 32 := by omega
    exact ⟨small, SequencesOk.placeEntry (room := room + s.placementsAhead) e order small (seqs.mono (by omega))⟩

/-! ### Firings -/

/-- A firing in MEMBER of an entry that has left the queue uses two places of the room (R105–R108). -/
theorem fire (ok : s.Orderly ordered (room + 2)) (member : s.member.state = .member) {e : Entry} (l : Option (BitVec 32))
    (periods : periodsOk e = true) (fresh : ∀ x ∈ s.sched.queue, x.id ≠ e.id) (places : s.sched.queue.length < 32) :
    (s.fire e l).Orderly ordered room := by
  have frame {u : State} (ok : u.Orderly ordered room) (sched : (s.fire e l).sched = u.sched) (clock : u.clock = s.clock)
      (same : u.member = s.member) (owed : u.owed = s.owed) : (s.fire e l).Orderly ordered room :=
    ok.of_frame sched (by simp [clock]) (by simp [same]) (by simp [owed])
  rcases fire_sched l periods with same | bumped | ⟨x, id, good, later, placed⟩
  · exact frame (ok.mono (Nat.le_add_right _ 2)) same rfl rfl rfl
  · exact frame (bumpSequence (ok.mono (Nat.le_add_right _ 1))) bumped rfl rfl rfl
  · have fresh : ∀ y ∈ s.sched.queue, y.id ≠ x.id := id ▸ fresh
    rcases placed with once | again
    · exact frame ((ok.mono (Nat.le_add_right _ 1)).placeEntry member later good fresh places) once rfl rfl rfl
    · exact frame ((bumpSequence ok).placeEntry member later good fresh places) again rfl rfl rfl

/-- Firings one after another of entries that have left the queue. -/
theorem fireAll (due : List Entry) (ok : s.Orderly ordered (room + 2 * due.length)) (member : s.member.state = .member)
    (periods : ∀ e ∈ due, periodsOk e = true) (ids : ((due ++ s.sched.queue).map Entry.id).Nodup)
    (places : due.length + s.sched.queue.length ≤ 32) : (due.foldl (fun s e => s.fire e none) s).Orderly ordered room := by
  induction due generalizing s with
  | nil => exact ok
  | cons e rest ih =>
    obtain ⟨apart, others⟩ := List.nodup_cons.1 ids
    have fresh : ∀ x ∈ s.sched.queue, x.id ≠ e.id := fun x hx same =>
      apart (List.mem_map.2 ⟨x, List.mem_append_right _ hx, same⟩)
    rw [List.length_cons] at ok places
    have good := periods e List.mem_cons_self
    have fired : (s.fire e none).Orderly ordered (room + 2 * rest.length) :=
      fire (ok.mono (by omega)) member none good fresh (by omega)
    have goesOn := ih fired (by simpa using member) (fun x hx => periods x (List.mem_cons_of_mem e hx))
    rcases fire_queue none good with same | ⟨x, id, _, perm⟩
    · rw [same] at goesOn
      exact goesOn others (by omega)
    · refine goesOn ?_ (by rw [perm.length_eq, List.length_cons]; omega)
      have moved : (rest ++ (s.fire e none).sched.queue).Perm (x :: (rest ++ s.sched.queue)) :=
        (perm.append_left rest).trans List.perm_middle
      rw [(moved.map Entry.id).nodup_iff, List.map_cons, id]
      exact ids

/-- The firing of a tick in MEMBER (R104). -/
theorem fireDue {c : Time} (ok : s.Orderly ordered (room + 64)) (member : s.member.state = .member)
    (owed : s.owed.fireFrom = some c) : (s.fireDue c).Orderly ordered room := by
  obtain ⟨few, ids, _, keys, _⟩ := ok.actions
  have parts : (s.sched.queue.filter (dueIn c s.now) ++ s.sched.queue.filter fun e => !dueIn c s.now e).Perm s.sched.queue :=
    List.filter_append_perm _ _
  have places := parts.length_eq.trans_le few
  rw [List.length_append] at places
  rw [fireDue_eq]
  refine fireAll _ (s := s.withoutDue c) ?_ member (fun e he => ?_) ((parts.map Entry.id).nodup_iff.2 ids) places
  · have waits : (s.withSched { s.sched with queue := s.sched.queue.filter fun e => !dueIn c s.now e }).Orderly ordered (room + 64) :=
      ok.sublist List.filter_sublist
    exact mono (by omega) ⟨ok.actions.withoutDue owed, fun other => absurd member other, waits.sequences⟩
  · obtain ⟨_, _, periods⟩ := keys e (List.mem_of_mem_filter he)
    exact periods

theorem fireOwed (ok : s.Orderly ordered (room + 64)) : s.fireOwed.Orderly ordered room := by
  unfold State.fireOwed
  split
  · exact ok.mono (Nat.le_add_right _ _)
  split
  · exact ok.fireDue ‹_› ‹_›
  · exact ok.mono (Nat.le_add_right _ _)

/-! ### Claims on the action queue -/

theorem insertByDue (ok : s.Orderly ordered (room + 2)) (member : s.member.state = .member) {e : Entry} (periods : periodsOk e = true)
    (fresh : ∀ x ∈ s.sched.queue, x.id ≠ e.id) (places : s.sched.queue.length < 32) : (s.insertByDue e).1.Orderly ordered room := by
  rcases s.insertByDue_cases e with ⟨after, h⟩ | ⟨_, h⟩ | ⟨_, _, _, h⟩ | ⟨_, _, _, h⟩ <;> rw [h]
  · exact (ok.mono (Nat.le_add_right _ 1)).placeEntry member after periods fresh places
  · exact ok.fire member _ periods fresh places
  · exact (ok.mono (Nat.le_add_right _ 2)).of_frame
  · exact ok.fire member _ periods fresh places

/-- An insertion uses two places of the room (R96–R108). -/
theorem insert (ok : s.Orderly ordered (room + 2)) {e : Entry} (new : e.pendingRep = none) : (s.insert e).1.Orderly ordered room := by
  have same := ok.mono (Nat.le_add_right room 2)
  have periods (good : fieldsOk e = true) : periodsOk e = true := by
    refine (periodsOk_iff e).2 ⟨fun r rep => ?_, by simp [new], fun _ => new⟩
    rw [fieldsOk, Option.mem_def.1 rep] at good
    exact (Bool.and_eq_true_iff.1 good).1
  rcases s.insert_cases e with ⟨_, h⟩ | ⟨_, _, h⟩ | ⟨_, _, _, h⟩ | ⟨member, _, good, ⟨x, hx, id⟩, h⟩ | ⟨_, _, _, _, _, h⟩
    | ⟨member, _, good, fresh, places, h⟩ <;> rw [h]
  · exact same
  · exact same
  · exact same
  · have fewer : (s.without e.id).sched.queue.length < s.sched.queue.length :=
      List.length_filter_lt_length_iff_exists.2 ⟨x, hx, by simp [id]⟩
    obtain ⟨few, _⟩ := ok.actions
    exact insertByDue (ok.without e.id) member (periods good) (fun y hy => by simpa using (List.mem_filter.1 hy).2)
      (lt_of_lt_of_le fewer few)
  · exact same
  · exact ok.insertByDue member (periods good) fresh places

/-- An amendment sets the pending values of a repeating entry, in range (R109). -/
theorem amendEntry (ok : s.Orderly ordered room) (id : ActionId) (new : Repeat) : (s.amendEntry id new).1.Orderly ordered room := by
  unfold State.amendEntry
  split
  · exact ok
  rename_i member
  split
  · exact ok
  rename_i e found
  split
  · exact ok
  rename_i repeats
  split
  · exact ok
  rename_i good
  obtain ⟨_, ids, _, keys, _⟩ := ok.actions
  have named : e.id = id := by simpa using List.find?_some found
  have periods : ∀ x ∈ s.sched.queue, periodsOk (x.amendedAt id new) = true := fun x hx => by
    obtain ⟨_, _, periods⟩ := keys x hx
    by_cases same : x.id = id
    · obtain rfl : x = e := List.inj_on_of_nodup_map ids hx (List.mem_of_find?_eq_some found) (same.trans named.symm)
      exact periodsOk_amendedAt periods (by simpa using good) (by simpa [Option.isNone_iff_eq_none] using repeats)
    · rw [Entry.amendedAt, if_neg same]
      exact periods
  refine ⟨ok.actions.map (·.id_amendedAt id new) (·.due_amendedAt id new) periods, fun other => absurd other member, fun holds => ?_⟩
  obtain ⟨small, seqs, wraps⟩ := ok.sequences holds
  refine ⟨small, List.pairwise_map.2 (seqs.imp fun {a b} h same => ?_), fun x hx => ?_⟩
  · show (s.sched.counter - (b.amendedAt id new).sequence).toNat < (s.sched.counter - (a.amendedAt id new).sequence).toNat
    rw [Entry.sequence_amendedAt, Entry.sequence_amendedAt]
    exact h ((a.due_amendedAt id new).symm.trans (same.trans (b.due_amendedAt id new)))
  · obtain ⟨y, hy, rfl⟩ := List.mem_map.1 hx
    show (s.sched.counter - (y.amendedAt id new).sequence).toNat + _ < _
    rw [Entry.sequence_amendedAt]
    exact wraps y hy

theorem cancelEntry (ok : s.Orderly ordered room) (id : ActionId) : (s.cancelEntry id).1.Orderly ordered room := by
  unfold State.cancelEntry
  split
  · exact ok
  split
  · exact ok.without id
  · exact ok

theorem applyClaim (ok : s.Orderly ordered (room + 2)) (origin : Station) (source : Source) (p : Payload) :
    (s.applyClaim origin source p).1.Orderly ordered room := by
  have same := ok.mono (Nat.le_add_right room 2)
  cases p with
  | action f => exact ok.insert rfl
  | amend selector serial new => exact same.amendEntry _ new
  | cancel selector serial => exact same.cancelEntry _
  | beacon time body => exact same
  | event selector channel edge stamp sequence => exact same
  | refuse origin serial reason => exact same

end

end Orderly

end State

/-- Settles O17: what is due leaves the queue before the firings, and those bring in none but what is due after now. -/
theorem firingLeavesNothingDue : Obligations.FiringLeavesNothingDue := by
  intro s c ok member owed
  have advance := ok.advance owed
  obtain ⟨_, _, _, keys, _⟩ := ok
  obtain ⟨kept, come⟩ := State.mem_queue_fireDue (c := c) fun e he => by
    obtain ⟨_, _, periods⟩ := keys e he
    exact periods
  have now : (s.fireDue c).now = s.now := by simp [State.now]
  refine ⟨s.fireDue c, by rw [exec_firing, State.fireOwed_of_member member owed], by rw [State.owed_fireDue], now, fun e he => ?_,
    fun e he waits => kept e he ?_⟩
  · rw [now]
    rcases come e he with waits | later
    · refine ⟨fun dueNow => ?_, fun ⟨after, past⟩ => ?_⟩
      · simp [State.dueIn_now advance dueNow] at waits
      · simp [State.dueIn, after, past] at waits
    · refine ⟨fun dueNow => ?_, fun ⟨_, past⟩ => ?_⟩
      · simp [dueNow, isAfter_self] at later
      · simp [past] at later
  · rw [State.dueIn, Bool.eq_false_iff]
    simpa using waits

end Sys2Proof.Machine
end

section
/-! PROOFS. The order of the action queue under what is handed over and handed on, the reflexes, the boundaries and the departures. -/

namespace Sys2Proof.Machine

namespace State.Orderly

section

variable {ordered : Prop} {room : Nat} {s t : State}

/-- Operations one after another, each of which uses as much of the room. -/
theorem foldl {α : Type} {f : State → α → State} {cost : Nat} (l : List α)
    (each : ∀ (u : State) (x : α) (room : Nat), u.Orderly ordered (room + cost) → (f u x).Orderly ordered room)
    (ok : s.Orderly ordered (room + cost * l.length)) : (l.foldl f s).Orderly ordered room := by
  induction l generalizing s with
  | nil => exact ok
  | cons x rest ih =>
    rw [List.length_cons, Nat.mul_succ, ← Nat.add_assoc] at ok
    exact ih (each s x _ ok)

theorem report (ok : s.Orderly ordered room) (d : ReportDetail) : (s.report d).Orderly ordered room := ok.of_frame

/-! ### What is handed over -/

theorem insertReflex (ok : s.Orderly ordered (room + 2)) (action : ActionFields) : (s.insertReflex action).Orderly ordered room := by
  have inserted : (s.insert (action.entry s.number .reflex)).1.Orderly ordered room := ok.insert rfl
  unfold State.insertReflex
  dsimp only
  split
  · exact inserted
  · exact inserted.report _

/-- An insertion that has waited had its place in the room. -/
theorem insertNext (ok : s.Orderly ordered room) : s.insertNext.Orderly ordered room := by
  unfold State.insertNext
  split
  · exact ok
  · rename_i h rest waiting
    have taken : (s.withOwed { s.owed with insertions := rest }).Orderly ordered (room + 2) :=
      ok.of_owed rfl (by simp only [placementsAhead, waiting, List.length_cons, owed_withOwed]; omega)
    exact (taken.insertReflex h.action).of_frame

theorem insertHandedOver (ok : s.Orderly ordered room) : s.insertHandedOver.Orderly ordered room :=
  foldl (cost := 0) _ (fun _ _ _ ok => ok.insertNext) (by simpa using ok)

theorem takeHandedOn (ok : s.Orderly ordered room) : s.takeHandedOn.Orderly ordered room := by
  unfold State.takeHandedOn
  split
  · exact ok
  · rename_i sender p rest waiting
    have taken : (s.withOwed { s.owed with exchange := rest }).Orderly ordered (room + 2) := by
      refine ok.of_owed rfl ?_
      simp only [placementsAhead, waiting, owed_withOwed, List.countP_cons, HandedOn.isClaim, if_true]
      omega
    have owed := (s.withOwed { s.owed with exchange := rest }).owed_applyClaim sender .remote p
    have claimed := taken.applyClaim sender .remote p
    split <;> (rename_i answer; rw [answer] at claimed owed)
    · exact claimed
    · rename_i id reason
      refine claimed.of_owed rfl ?_
      dsimp only at owed
      simp only [placementsAhead, owed_withOwed, owed, List.countP_cons, HandedOn.isClaim, Bool.false_eq_true, if_false]
      exact le_refl _
  · rename_i id reason rest waiting
    have taken : (s.withOwed { s.owed with exchange := rest }).Orderly ordered room := by
      refine ok.of_owed rfl ?_
      simp only [placementsAhead, waiting, owed_withOwed, List.countP_cons, HandedOn.isClaim]
      exact le_refl _
    exact taken.of_frame

theorem takeAllHandedOn (ok : s.Orderly ordered room) : s.takeAllHandedOn.Orderly ordered room :=
  foldl (cost := 0) _ (fun _ _ _ ok => ok.takeHandedOn) (by simpa using ok)

/-- A claim handed on takes its place in the room (R136). -/
theorem takeRemote (ok : s.Orderly ordered (room + 2)) (atOnce : Bool) (sender : Station) (p : Payload) :
    (s.takeRemote atOnce sender p).Orderly ordered room := by
  have handed : (s.withOwed { s.owed with exchange := s.owed.exchange ++ [.claim sender p] }).Orderly ordered room := by
    refine ok.of_owed rfl ?_
    simp only [placementsAhead, owed_withOwed, List.countP_append, List.countP_singleton, HandedOn.isClaim, if_true]
    omega
  unfold State.takeRemote
  split
  · dsimp only
    split
    · exact handed.takeAllHandedOn
    · exact handed
  · exact ok.mono (Nat.le_add_right _ _)

theorem selfDeliver (ok : s.Orderly ordered (room + 2)) (p : Payload) : (s.selfDeliver p).Orderly ordered room := by
  have claimed := ok.applyClaim s.number .selfDelivery p
  unfold State.selfDeliver
  split
  · split <;> (rename_i answer; rw [answer] at claimed)
    · exact claimed
    · exact claimed.report _
  · exact ok.mono (Nat.le_add_right _ _)

/-! ### Edges and their reflexes -/

/-- A NOT_SENT report that waits leaves as many insertions waiting. -/
theorem reportNotSent (ok : s.Orderly ordered room) (earlier : Nat) (kind : FrameKind) (n : Fin 16) :
    (s.reportNotSent earlier kind n).Orderly ordered room := by
  rcases s.reportNotSent_cases earlier kind n with ⟨_, h⟩ | ⟨before, h, _, waiting, kept⟩
  · rw [h]
    exact ok.report _
  · rw [kept]
    refine ok.of_owed rfl ?_
    simp only [placementsAhead, waiting, owed_withOwed, List.length_append, List.length_singleton]
    exact le_refl _

theorem publish (ok : s.Orderly ordered room) (earlier : Nat) (n : Fin 16) (x : ReflexEntry) (stamp : Time) :
    (s.publish earlier n x stamp).Orderly ordered room := by
  have asked : (s.enqueue (.fresh (.event x.selector x.input x.edge stamp s.cap.eventCounter) false (some n))).1.Orderly ordered room :=
    ok.of_frame
  unfold State.publish
  split <;> (rename_i answer; rw [answer] at asked)
  · exact asked.withCap _
  · exact asked.reportNotSent _ _ _
  · exact asked

theorem reflexPost (ok : s.Orderly ordered room) (earlier : Nat) (n : Fin 16) (x : ReflexEntry) (stamp : Time) :
    (s.reflexPost earlier n x stamp).Orderly ordered room := by
  have asked : (s.enqueue (.fresh (.action (s.reflexAction x stamp)) true (some n))).1.Orderly ordered room := ok.of_frame
  unfold State.reflexPost
  split <;> (rename_i answer; rw [answer] at asked)
  · exact asked.of_frame
  · exact asked.reportNotSent _ _ _
  · exact asked

/-- An insertion handed over takes its place in the room (R165). -/
theorem reflexLocal (ok : s.Orderly ordered (room + 2)) (atOnce : Bool) (x : ReflexEntry) (stamp : Time) :
    (s.reflexLocal atOnce x stamp).Orderly ordered room := by
  have handed : (s.takeSerial.withOwed { s.owed with
      insertions := s.owed.insertions ++ [{ action := s.reflexAction x stamp, behind := [] }] }).Orderly ordered room := by
    refine ok.of_owed rfl ?_
    simp only [placementsAhead, owed_withOwed, List.length_append, List.length_singleton]
    omega
  unfold State.reflexLocal
  dsimp only
  split
  · exact handed.insertHandedOver
  · exact handed

theorem reflex (ok : s.Orderly ordered (room + 2)) (earlier : Nat) (atOnce : Bool) (n : Fin 16) (input : Fin 8) (edge : EdgeDir)
    (stamp : Time) : (s.reflex earlier atOnce n input edge stamp).Orderly ordered room := by
  have same := ok.mono (Nat.le_add_right room 2)
  unfold State.reflex
  dsimp only
  split
  · split
    · exact same.publish _ _ _ _
    · exact same.reflexPost _ _ _ _
    · exact ok.reflexLocal _ _ _
  · exact same

/-- The reflexes of an edge hand over at most sixteen insertions (R162). -/
theorem takeEdge (ok : s.Orderly ordered (room + 32)) (atOnce : Bool) (input : Fin 8) (edge : EdgeDir) (first : SampleRecord) :
    (s.takeEdge atOnce input edge first).Orderly ordered room := by
  unfold State.takeEdge
  dsimp only
  split
  · have entered (body : LogBody) : (s.enterLog body).1.Orderly ordered (room + 2 * (List.finRange 16).length) := ok.of_frame
    split
    · exact foldl _ (fun _ n _ ok => ok.reflex _ atOnce n input edge _) (entered _)
    · exact (entered _).mono (Nat.le_add_right _ _)
  · exact ok.mono (Nat.le_add_right _ _)

theorem qualify (ok : s.Orderly ordered (room + 32)) (atOnce : Bool) (input : Fin 8) : (s.qualify atOnce input).Orderly ordered room := by
  have same := ok.mono (Nat.le_add_right room 32)
  unfold State.qualify
  split
  · exact same
  dsimp only
  split
  · exact same
  split
  · exact (ok.withCap _).takeEdge _ _ _ _
  · exact same

/-! ### Boundaries and departures -/

/-- A teardown leaves the queue empty (R91, R116). -/
theorem teardownToListen (ok : s.Orderly ordered room) (cause : Cause) : (s.teardownToListen cause).Orderly ordered room := by
  obtain ⟨_, _, _, _, _, sched, _, _, owed, _⟩ := s.teardownToListen_blocks cause
  refine ok.of_nil (by rw [sched]) (by rw [owed]) ?_
  rw [placementsAhead, owed, placementsAhead]
  simp

theorem enterStopped (ok : s.Orderly ordered room) (cause : Cause) : (s.enterStopped cause).Orderly ordered room := by
  by_cases active : s.active = true
  · obtain ⟨_, _, _, _, _, _, _, owed⟩ := enterStopped_stops (s := s) cause active
    refine ok.of_nil ?_ (by rw [owed]) ?_
    · rcases sched_enterStopped cause active with ⟨sched, listening⟩ | sched
      · obtain ⟨empty, _⟩ := ok.idle (by simp [listening])
        rw [sched, empty]
      · rw [sched]
    · rw [placementsAhead, owed, placementsAhead]
      dsimp only
      split <;> simp
  · have void : s.enterStopped cause = s := by
      unfold State.active at active
      unfold State.enterStopped
      cases h : s.member.state <;> simp_all
    rwa [void]

theorem lineErrors (ok : s.Orderly ordered room) (now turn : LineTurn) (errors : Nat) (stamp : Time) :
    (s.lineErrors now turn errors stamp).Orderly ordered room := ok.of_frame

theorem takeVerdict (ok : s.Orderly ordered room) (v : Verdict) : (s.takeVerdict v).Orderly ordered room := by
  rcases v.effect_cases s.member.state with ⟨rfl, state⟩ | ⟨rfl, state⟩ | ⟨rfl, state⟩ | void
  · rw [takeVerdict_join state]
    obtain ⟨empty, unfired⟩ := ok.idle (by simp [state])
    exact ok.of_nil empty unfired (le_refl _)
  · rw [takeVerdict_joinFailure state]
    exact ok.teardownToListen _
  · rw [takeVerdict_split state]
    exact ok.teardownToListen _
  · rwa [takeVerdict_void void]

theorem takeHandedVerdict (ok : s.Orderly ordered room) : s.takeHandedVerdict.Orderly ordered room := by
  unfold State.takeHandedVerdict
  split
  · exact ok
  · have dropped : ∀ turn, (s.dropVerdict turn).Orderly ordered room := fun turn => ok.of_owed rfl (le_refl _)
    exact ((dropped _).takeVerdict _).lineErrors _ _ _ _

theorem evaluation (ok : s.Orderly ordered room) (turn : LineTurn) : (s.evaluation turn).Orderly ordered room :=
  ok.of_owed (by simp) (by simp [placementsAhead])

theorem evaluationOwed (ok : s.Orderly ordered room) (turn : LineTurn) : (s.evaluationOwed turn).Orderly ordered room := by
  unfold State.evaluationOwed
  split
  · exact ok.evaluation turn
  · exact ok

theorem boundaryOwed (ok : s.Orderly ordered room) (turn : LineTurn) : (s.boundaryOwed turn).Orderly ordered room := by
  unfold State.boundaryOwed
  split
  · exact (ok.evaluation turn).takeHandedVerdict
  · exact ok

/-- The queue is empty in LISTEN, and so when the station founds a cluster (R80). -/
theorem foundOwed (ok : s.Orderly ordered room) : s.foundOwed.Orderly ordered room := by
  unfold State.foundOwed
  split
  · rename_i expired
    obtain ⟨empty, unfired⟩ := ok.idle (by simp [listening_of_windowExpired expired])
    exact ok.of_nil empty unfired (le_refl _)
  · exact ok

end

end State.Orderly

end Sys2Proof.Machine
end

section
/-! PROOFS. The order of the action queue under reception, the own frame and the commands. -/

namespace Sys2Proof.Machine

namespace State.Orderly

section

variable {ordered : Prop} {room : Nat} {s : State}

/-! ### Reception -/

theorem takeBeacon (ok : s.Orderly ordered room) (sender : Station) (time : Time) (body : BeaconBody) (sof : Option SofRecord) :
    (s.takeBeacon sender time body sof).Orderly ordered room := by
  have recorded : (s.recordBeacon sender time body sof).Orderly ordered room := by
    unfold State.recordBeacon
    split
    · exact ok
    · exact ok.of_frame
  unfold State.takeBeacon
  split
  · rename_i listening
    split
    · obtain ⟨empty, unfired⟩ := ok.idle (by simp [listening])
      exact ok.of_nil empty unfired (le_refl _)
    · exact ok
  · exact recorded
  · exact recorded
  all_goals exact ok

/-- Of a valid frame a claim reaches the action queue, or a departure empties it (R15, R16, R136). -/
theorem handOn (ok : s.Orderly ordered (room + 2)) (atOnce : Bool) (f : Frame) (sof : Option SofRecord) :
    (s.handOn atOnce f sof).Orderly ordered room := by
  have same := ok.mono (Nat.le_add_right room 2)
  unfold State.handOn
  split
  · exact same.enterStopped .duplicate
  cases f.payload with
  | beacon time body => exact same.takeBeacon _ _ _ _
  | action fields => exact ok.takeRemote _ _ _
  | amend selector serial new => exact ok.takeRemote _ _ _
  | cancel selector serial => exact ok.takeRemote _ _ _
  | event selector channel edge stamp sequence =>
    unfold State.takeEvent
    dsimp only
    split
    · exact same.of_frame
    · exact same
  | refuse origin serial reason =>
    unfold State.takeRefuse
    dsimp only
    split
    · exact same.report _
    · exact same

theorem receive (ok : s.Orderly ordered (room + 2)) (atOnce : Bool) (f : PartialFrame) (samples : List Bool) :
    (s.receive atOnce f samples).Orderly ordered room := by
  have same := ok.mono (Nat.le_add_right room 2)
  unfold State.receive
  dsimp only
  cases takeSamples f samples with
  | more f' => exact (same.withLine _).withLine _
  | truncated => exact (same.withLine _).withLine _
  | error => exact (same.withLine _).withLine _
  | valid frame => exact ((ok.withLine _).withLine _).handOn _ _ _

theorem complete (ok : s.Orderly ordered (room + 2)) (atOnce : Bool) (samples : List Bool) :
    (s.complete atOnce samples).Orderly ordered room := by
  unfold State.complete
  split
  · exact ok.receive atOnce _ samples
  · exact ok.mono (Nat.le_add_right _ _)

/-! ### The own frame -/

theorem transmissionFailed (ok : s.Orderly ordered room) : s.transmissionFailed.Orderly ordered room := by
  unfold State.transmissionFailed
  split
  · exact ok
  split
  · exact ok.withCont _
  split
  · exact (ok.withCont _).report _
  · exact ok.withCont _

theorem transmissionSucceeded (ok : s.Orderly ordered (room + 2)) : s.transmissionSucceeded.Orderly ordered room := by
  unfold State.transmissionSucceeded
  split
  · exact ok.mono (Nat.le_add_right _ _)
  dsimp only
  split
  · exact (ok.mono (Nat.le_add_right _ _)).withCont _
  · exact (ok.withCont _).selfDeliver _

theorem afterMismatch (ok : s.Orderly ordered (room + 2)) (bit : Nat) : (s.afterMismatch bit).Orderly ordered room := by
  unfold State.afterMismatch
  dsimp only
  cases s.line.afterSend with
  | off => exact (ok.mono (Nat.le_add_right _ _)).withLine _
  | seek => exact (ok.mono (Nat.le_add_right _ _)).withLine _
  | inStep => exact (ok.withLine _).receive _ _ _

theorem stick (ok : s.Orderly ordered room) : s.stick.Orderly ordered room := by
  unfold State.stick
  dsimp only
  split
  · exact (ok.withLine _).withCont _
  · exact ((ok.withLine _).withCont _).report _

/-! ### The commands -/

theorem guarded {own : State → State} (ok : s.Orderly ordered room) (c : Command) (kept : (own s).Orderly ordered room) :
    (s.guarded c own).Orderly ordered room := by
  unfold State.guarded
  split
  · exact kept
  · exact ok.withPort _

theorem answer (ok : s.Orderly ordered room) (c : Command) (code : RespCode) (data : List Byte) :
    (s.answer c code data).Orderly ordered room := ok.withPort _

theorem sendCommand (ok : s.Orderly ordered room) (c : Command) (p : Payload) : (s.sendCommand c p).Orderly ordered room :=
  (ok.of_frame (t := (s.enqueue (.fresh p true none)).1)).answer _ _ _

/-- The queue is empty outside MEMBER, and so in every state from which CONFIGURE and START are taken. -/
theorem runStart (ok : s.Orderly ordered room) : s.runStart.Orderly ordered room := by
  unfold State.runStart State.guarded
  split
  · rename_i allowed
    have outside : s.member.state ≠ .member := fun member => by simp [Command.allowedIn, member] at allowed
    obtain ⟨empty, _⟩ := ok.idle outside
    refine answer ?_ _ _ _
    split
    · exact ok.of_nil empty rfl (le_refl _)
    · exact ok.of_nil empty rfl (le_refl _)
  · exact ok.answer _ _ _

theorem runConfigure (ok : s.Orderly ordered room) (block : List Byte) : (s.runConfigure block).Orderly ordered room := by
  unfold State.runConfigure State.guarded
  split
  · rename_i allowed
    have outside : s.member.state ≠ .member := fun member => by simp [Command.allowedIn, member] at allowed
    obtain ⟨empty, unfired⟩ := ok.idle outside
    dsimp only
    split
    · exact ok.answer _ _ _
    · refine answer ?_ _ _ _
      exact ok.of_nil empty unfired (le_refl _)
  · exact ok.answer _ _ _

theorem runPost (ok : s.Orderly ordered (room + 2)) (scope : Byte) (f : ActionFields) : (s.runPost scope f).Orderly ordered room := by
  have same := ok.mono (Nat.le_add_right room 2)
  unfold State.runPost
  refine same.guarded _ ?_
  split
  · exact same.answer _ _ _
  split
  · exact same.answer _ _ _
  split
  · exact (ok.insert rfl).answer _ _ _
  · exact same.sendCommand _ _

theorem runAmend (ok : s.Orderly ordered room) (scope : Byte) (selector serial : Half) (new : Repeat) :
    (s.runAmend scope selector serial new).Orderly ordered room := by
  unfold State.runAmend
  refine ok.guarded _ ?_
  split
  · exact ok.answer _ _ _
  split
  · exact (ok.amendEntry _ _).answer _ _ _
  · exact ok.sendCommand _ _

theorem runCancel (ok : s.Orderly ordered room) (scope : Byte) (selector serial : Half) :
    (s.runCancel scope selector serial).Orderly ordered room := by
  unfold State.runCancel
  refine ok.guarded _ ?_
  split
  · exact ok.answer _ _ _
  split
  · exact (ok.cancelEntry _).answer _ _ _
  · exact ok.sendCommand _ _

theorem runFind (ok : s.Orderly ordered room) (origin : Byte) (serial : Half) : (s.runFind origin serial).Orderly ordered room := by
  unfold State.runFind
  refine ok.guarded _ ?_
  split
  · exact ok.answer _ _ _
  dsimp only
  split <;> exact ok.answer _ _ _

theorem runReadLog (ok : s.Orderly ordered room) (count : Byte) : (s.runReadLog count).Orderly ordered room := by
  unfold State.runReadLog
  refine ok.guarded _ ?_
  split
  · exact ok.answer _ _ _
  · exact ((ok.withCap _).withPort _).answer _ _ _

theorem runReadReports (ok : s.Orderly ordered room) (count : Byte) : (s.runReadReports count).Orderly ordered room := by
  unfold State.runReadReports
  refine ok.guarded _ ?_
  split
  · exact ok.answer _ _ _
  · exact ((ok.withPort _).withPort _).answer _ _ _

theorem runSnapshot (ok : s.Orderly ordered room) : s.runSnapshot.Orderly ordered room := by
  have entered : (s.enterLog s.softRecord).1.Orderly ordered room := ok.of_frame
  unfold State.runSnapshot
  exact ok.guarded _ (entered.answer _ _ _)

theorem runDrive (ok : s.Orderly ordered room) (line kind : Byte) : (s.runDrive line kind).Orderly ordered room := by
  unfold State.runDrive
  refine ok.guarded _ ?_
  split
  · exact ok.answer _ _ _
  split
  · exact ok.answer _ _ _
  · have driven (l : Fin 8) (k : ActionKind) (w : Half) (id : ActionId) (due : Time) :
        (s.applyFiring l k w id due).Orderly ordered room := ok.of_frame
    exact (driven _ _ _ _ _).answer _ _ _

/-- Of the commands a local POST, AMEND or CANCEL reaches the action queue, and STOP empties it (R90, R141). -/
theorem run (ok : s.Orderly ordered (room + 2)) (c : Command) : (s.run c).Orderly ordered room := by
  have same := ok.mono (Nat.le_add_right room 2)
  cases c with
  | nop =>
    unfold State.run State.runNop
    exact same.guarded _ (same.answer _ _ _)
  | status =>
    unfold State.run State.runStatus
    exact same.guarded _ (same.answer _ _ _)
  | readPeers =>
    unfold State.run State.runReadPeers
    exact same.guarded _ (same.answer _ _ _)
  | stop =>
    unfold State.run State.runStop
    exact same.guarded _ ((same.enterStopped _).answer _ _ _)
  | configure block => exact same.runConfigure block
  | start => exact same.runStart
  | snapshot => exact same.runSnapshot
  | post scope fields => exact ok.runPost scope fields
  | amend scope selector serial new => exact same.runAmend scope selector serial new
  | cancel scope selector serial => exact same.runCancel scope selector serial
  | find origin serial => exact same.runFind origin serial
  | readLog count => exact same.runReadLog count
  | readReports count => exact same.runReadReports count
  | drive line kind => exact same.runDrive line kind

theorem runDue (ok : s.Orderly ordered (room + 2)) : s.runDue.Orderly ordered room := by
  unfold State.runDue
  split
  · split
    · exact ok.run _
    · exact ok.mono (Nat.le_add_right _ _)
  · exact ok.mono (Nat.le_add_right _ _)
  · exact ok.mono (Nat.le_add_right _ _)

end

end State.Orderly

end Sys2Proof.Machine
end

section
/-! PROOFS. The order of the action queue at a tick and in every row, and so in every step (R94, R95). -/

namespace Sys2Proof.Machine

namespace State

/-! ### The tick -/

/-- No move makes a firing due (R104). -/
theorem Move.fireFrom_eq_none {s t : State} (move : s.Move t) (unfired : s.owed.fireFrom = none) : t.owed.fireFrom = none := by
  cases move with
  | steady same => exact same.fireFrom.elim (·.trans unfired) id
  | evaluates turn meets => simpa using unfired
  | leaves cause timed =>
    obtain ⟨_, _, _, _, _, _, _, _, owed, _⟩ := s.teardownToListen_blocks cause
    rw [owed]
  | stops cause active =>
    obtain ⟨_, _, _, _, _, _, _, owed⟩ := enterStopped_stops (s := s) cause active
    rw [owed]
  | founds | adopts | joins | configures => exact unfired
  | starts | restarts => rfl

theorem Moves.fireFrom_eq_none {s t : State} (moves : s.Moves t) (unfired : s.owed.fireFrom = none) : t.owed.fireFrom = none := by
  induction moves with
  | refl => exact unfired
  | tail _ last ih => exact last.fireFrom_eq_none ih

/-- What a tick leaves to be fired is taken by the row or before the next tick, in MEMBER, where alone it is owed (R104). -/
theorem fireFrom_fireOwed {s : State} (idle : s.member.state ≠ .member → s.owed.fireFrom = none) : s.fireOwed.owed.fireFrom = none := by
  cases owed : s.owed.fireFrom with
  | none => rwa [fireOwed_of_unmet (.inl owed)]
  | some c =>
    have member : s.member.state = .member := by
      by_contra other
      rw [idle other] at owed
      cases owed
    rw [fireOwed_of_member member owed, owed_fireDue]

namespace Orderly

section

variable {ordered : Prop} {room : Nat} {s : State}

/-- What is left of the last tick uses as much of the room as its firing, eight edges and a command (log 1). -/
theorem settle (ok : s.Orderly ordered (room + 322)) : s.settle.Orderly ordered room ∧ s.settle.owed.fireFrom = none := by
  have handedOn := ok.insertHandedOver.takeAllHandedOn.takeHandedVerdict
  unfold State.settle
  dsimp only
  generalize hn : List.finRange 8 = each
  have eight : each.length = 8 := by rw [← hn, List.length_finRange]
  have pulses : (each.foldl (fun s l => s.endPulse l) s.insertHandedOver.takeAllHandedOn.takeHandedVerdict).Orderly ordered (room + 322) :=
    foldl (cost := 0) each (fun u l _ ok => ok.of_frame (t := u.endPulse l)) (by simpa using handedOn)
  have fired : State.Orderly ordered (room + 2 + 32 * each.length) _ := fireOwed (mono (by omega) pulses)
  have edges := foldl (cost := 32) each (fun _ i _ ok => ok.qualify true i) (fired.boundaryOwed .first)
  refine ⟨edges.foundOwed.runDue, ?_⟩
  have unfired := fireFrom_fireOwed fun other => (pulses.idle other).2
  generalize State.fireOwed _ = u at unfired
  have moves := (moves_boundaryOwed u .first).trans (Steady.foldl (fun u i => Steady.qualify u true i) each _).moves
  exact Moves.fireFrom_eq_none ((moves.trans (moves_foundOwed _)).trans (moves_runDue _)) unfired

/-- A tick advances cluster time by at most 2, and owes the firing of what it reaches in MEMBER (R39, R40, R104). -/
theorem tickNow (ok : s.Orderly ordered room) (unfired : s.owed.fireFrom = none) (levels : BitVec 8) :
    (s.tickNow levels).Orderly ordered room := by
  obtain ⟨member, _, _, _, sched, _⟩ := s.tickNow_frame levels
  cases timed : s.clock.cluster with
  | none =>
    have cluster : (s.tickNow levels).clock.cluster = s.clock.cluster := by
      rw [clock_tickNow, s.clock_tickClock_of_untimed timed]
      rfl
    have owed := s.owed_tickNow_of_untimed levels timed
    exact ok.of_owed (by rw [owed]) (by rw [placementsAhead, owed]; exact le_refl _) sched cluster (by rw [member])
  | some c =>
    have owed := s.owed_tickNow_of_timed levels timed
    have ahead : (s.tickNow levels).placementsAhead = s.placementsAhead := by rw [placementsAhead, owed]; rfl
    by_cases state : s.member.state = .member
    · have base : s.orderBase = c := by simp [orderBase, unfired, State.now, timed]
      have now : (s.tickNow levels).now = s.tickClock.now := by simp [State.now]
      rw [if_pos state] at owed
      have advance : s.tickClock.now = c ∨ s.tickClock.now = c + 1 ∨ s.tickClock.now = c + 2 := by
        rcases s.tick_cases with ordinary | ⟨adjusts, behind⟩ | ⟨adjusts, ahead⟩
        · simp [State.now, clock_tickClock_of_ordinary timed ordinary]
        · simp [State.now, clock_tickClock_of_behind timed adjusts behind]
        · simp [State.now, clock_tickClock_of_ahead timed adjusts ahead]
      refine ⟨ok.actions.of_base (by rw [sched]) ?_ ?_, fun other => absurd (member ▸ state) other, fun holds => ?_⟩
      · rw [base, orderBase, owed, now]
        dsimp only
        split
        · assumption
        · rfl
      · rw [owed, now]
        dsimp only
        split
        · rfl
        · rename_i moved
          simpa using advance.resolve_left moved
      · obtain ⟨small, seqs⟩ := ok.sequences holds
        unfold SequencesOk
        rw [ahead, sched]
        exact ⟨small, seqs⟩
    · rw [if_neg state] at owed
      obtain ⟨empty, _⟩ := ok.idle state
      exact ok.of_nil (by rw [sched, empty]) (by rw [owed]; exact unfired) ahead.le

/-! ### The rows -/

/-- At reset nothing is queued and nothing is owed. -/
theorem hardwareReset (ok : s.Orderly ordered room) : LeadsTo (Orderly ordered room) (execHardwareReset s) :=
  .next (ok.of_nil rfl rfl (Nat.zero_le _))

theorem lineIdle (ok : s.Orderly ordered room) : LeadsTo (Orderly ordered room) (execLineIdle s) := by
  unfold execLineIdle
  split
  · exact .next ((ok.withLine _).withCont _)
  · exact .next ok

theorem idleSlot (ok : s.Orderly ordered room) : LeadsTo (Orderly ordered room) (execIdleSlot s) := by
  have begun : s.beginSlot.Orderly ordered room := (ok.withCont _).withLine _
  have started (place : Nat) : (s.beginSlot.startFrame place).Orderly ordered room := by
    unfold State.startFrame
    split
    · exact begun
    · exact (begun.withCont _).withLine _
  unfold execIdleSlot
  split
  · dsimp only
    split
    · exact .next begun
    split
    · exact .next (started _)
    · exact .next begun
  · exact .next ok

theorem startOfFrame (ok : s.Orderly ordered room) : LeadsTo (Orderly ordered room) (execStartOfFrame s) := by
  unfold execStartOfFrame
  split
  · exact .next ((ok.withLine _).withCont _)
  · exact .next ok

theorem rejectedStartEdge (ok : s.Orderly ordered room) : LeadsTo (Orderly ordered room) (execRejectedStartEdge s) := by
  unfold execRejectedStartEdge
  cases s.line.receiver with
  | off | send | stuck => exact .next ok
  | seek => exact .next (ok.withLine _)
  | wait => exact .next ((ok.withLine _).withCont _)
  | receive =>
    dsimp only
    split
    · exact .next (ok.withLine _)
    split
    · exact .next (ok.withLine _)
    · exact .next ok

theorem frameTruncated (ok : s.Orderly ordered room) : LeadsTo (Orderly ordered room) (execFrameTruncated s) := by
  unfold execFrameTruncated
  split
  · split
    · exact .next ((ok.withLine _).withLine _)
    · exact .next ok
  · exact .next ok

theorem transmissionSuccess (ok : s.Orderly ordered (room + 2)) : LeadsTo (Orderly ordered room) (execTransmissionSuccess s) := by
  unfold execTransmissionSuccess
  split
  · exact .next (ok.withLine _).transmissionSucceeded
  · exact .next (ok.mono (Nat.le_add_right _ _))

theorem readbackMismatch (ok : s.Orderly ordered (room + 2)) (bit : Nat) :
    LeadsTo (Orderly ordered room) (execReadbackMismatch bit s) := by
  unfold execReadbackMismatch
  split
  · exact .next (ok.transmissionFailed.afterMismatch bit)
  · exact .next (ok.mono (Nat.le_add_right _ _))

theorem lineStuck (ok : s.Orderly ordered room) : LeadsTo (Orderly ordered room) (execLineStuck s) := by
  unfold execLineStuck
  cases s.line.receiver with
  | off | stuck => exact .next ok
  | seek | wait | receive => exact .next ok.stick
  | send =>
    cases s.line.afterSend with
    | off => exact .next (ok.transmissionFailed.withLine _)
    | inStep | seek => exact .next ok.transmissionFailed.stick

theorem stuckRunEnd (ok : s.Orderly ordered room) : LeadsTo (Orderly ordered room) (execStuckRunEnd s) := by
  unfold execStuckRunEnd
  split
  · exact .next (ok.withLine _)
  · exact .next ok

theorem lineReleased (ok : s.Orderly ordered room) : LeadsTo (Orderly ordered room) (execLineReleased s) := by
  unfold execLineReleased
  split
  · exact .next ((ok.withLine _).report _)
  · exact .next ok

theorem transactionBegin (ok : s.Orderly ordered room) : LeadsTo (Orderly ordered room) (execTransactionBegin s) := by
  unfold execTransactionBegin beginTransaction
  split
  · refine .next ?_
    split <;> exact ok.withPort _
  · exact .next ok

theorem transactionEnd (ok : s.Orderly ordered room) (bits cut : List Bool) :
    LeadsTo (Orderly ordered room) (execTransactionEnd bits cut s) := by
  unfold execTransactionEnd endTransaction
  split
  · exact .next ok
  · refine .next ?_
    split
    · exact ok.withPort _
    split <;> exact ok.withPort _

/-- A row of a command executes nothing, or a command (R172). -/
theorem row (ok : s.Orderly ordered (room + 2)) (c : Command) : LeadsTo (Orderly ordered room) (exec c.row s) := by
  rcases exec_row_cases s c with same | ⟨d, runs⟩
  · rw [same]
    exact .next (ok.mono (Nat.le_add_right _ _))
  · rw [runs]
    exact .next (ok.run d)

/-- Every row keeps the order, and uses no more of the room than a tick. A row of a command runs the command that the port holds, so that
the parameters named here are of no account. -/
theorem everyRow (ok : s.Orderly ordered (room + 322)) (i : Instr) : LeadsTo (Orderly ordered room) (exec i s) := by
  have same : s.Orderly ordered room := ok.mono (by omega)
  have once : s.Orderly ordered (room + 2) := ok.mono (by omega)
  have edge : s.Orderly ordered (room + 32) := ok.mono (by omega)
  have firing : s.Orderly ordered (room + 64) := ok.mono (by omega)
  cases i with
  | hardwareReset => exact same.hardwareReset
  | tick levels => exact .next (ok.settle.1.tickNow ok.settle.2 levels)
  | roundBoundary event =>
    cases event with
    | whole turn => exact .next (same.boundaryOwed turn)
    | evaluation turn => exact .next (same.evaluationOwed turn)
    | verdict => exact .next same.takeHandedVerdict
  | listenWindowExpiry => exact .next same.foundOwed
  | firing => exact .next firing.fireOwed
  | pulseEnd line => exact .next (same.of_frame (t := s.endPulse line))
  | edgeQualified event =>
    cases event with
    | whole input => exact .next (edge.qualify true input)
    | handOver input => exact .next (edge.qualify false input)
    | insertion => exact .next same.insertNext
  | lineIdle => exact same.lineIdle
  | idleSlot => exact same.idleSlot
  | startOfFrame => exact same.startOfFrame
  | frameTruncated => exact same.frameTruncated
  | frameCompletion event =>
    cases event with
    | whole samples => exact .next (once.complete true samples)
    | handOver samples => exact .next (once.complete false samples)
    | next => exact .next same.takeHandedOn
  | transmissionSuccess => exact once.transmissionSuccess
  | readbackMismatch bit => exact once.readbackMismatch bit
  | lineStuck => exact same.lineStuck
  | lineReleased => exact same.lineReleased
  | transactionBegin => exact same.transactionBegin
  | transactionEnd bits cut => exact same.transactionEnd bits cut
  | stuckRunEnd => exact same.stuckRunEnd
  | rejectedStartEdge => exact same.rejectedStartEdge
  | nop => exact once.row .nop
  | status => exact once.row .status
  | configure => exact once.row (.configure [])
  | start => exact once.row .start
  | stop => exact once.row .stop
  | post => exact once.row (.post 0 (actionFieldsAt [] 0))
  | amend => exact once.row (.amend 0 0 0 ⟨0, 0⟩)
  | cancel => exact once.row (.cancel 0 0 0)
  | find => exact once.row (.find 0 0)
  | readLog => exact once.row (.readLog 0)
  | readReports => exact once.row (.readReports 0)
  | readPeers => exact once.row .readPeers
  | snapshot => exact once.row .snapshot
  | drive => exact once.row (.drive 0 0)

/-- A step runs a row on the rest of the queue of commands, or none. -/
theorem step {t : State} (ok : s.Orderly ordered (room + 322)) (took : Machine.step s = .next t) : t.Orderly ordered room := by
  unfold Machine.step at took
  split at took
  · exact Host.Outcome.next.inj took ▸ ok.mono (Nat.le_add_right _ _)
  · exact (ok.withPending _).everyRow _ t took

end

/-- A state in the bounds, in a phase that holds, is in order; and so are its sequences, where there is room for the placements that
wait. -/
theorem of_actionsOk {s : State} (phase : s.PhaseOk) (actions : s.ActionsOk) :
    s.Orderly (s.SequencesOk (2 ^ 20) ∧ s.owed.insertions.length + s.owed.exchange.length < 2 ^ 16) 322 where
  actions := actions
  idle other := by
    obtain ⟨_, _, _, queue, _, _, _, _, firing⟩ := phase
    refine ⟨queue other, ?_⟩
    cases owed : s.owed.fireFrom with
    | none => rfl
    | some c => exact absurd (firing (by simp [owed])) other
  sequences := fun ⟨seqs, few⟩ => by
    have claims : s.owed.exchange.countP HandedOn.isClaim ≤ s.owed.exchange.length := List.countP_le_length
    have ahead : 322 + s.placementsAhead ≤ 2 ^ 20 := by unfold placementsAhead; omega
    exact ⟨by omega, seqs.mono ahead⟩

end Orderly

end State

/-- Settles O57: every row keeps the queue in its bounds and in order, and a tick, the longest, makes fewer placements than there is room
for. -/
theorem actionsKept : Obligations.ActionsKept := by
  intro s t phase actions took
  have kept := State.Orderly.step (room := 0) (State.Orderly.of_actionsOk phase actions) took
  exact ⟨kept.actions, fun seqs few => (kept.sequences ⟨seqs, few⟩).2.mono (Nat.zero_le _)⟩

end Sys2Proof.Machine
end

section
/-! PROOFS. The firing of a tick (R104–R108): the due entries fire in queue order, each once. -/

namespace Sys2Proof.Machine

/-- R95: an entry is placed behind every entry of its due time and ahead of every later one. -/
theorem placesInOrder : PlacesInOrder := by
  intro base e ahead behind notLater later
  induction ahead with
  | nil =>
    cases behind with
    | nil => rfl
    | cons x rest => exact if_neg (Nat.not_le.2 (later x rfl))
  | cons x rest ih =>
    have first : dueKey base x.due ≤ dueKey base e.due := notLater x List.mem_cons_self
    rw [List.cons_append, placeIn, if_pos first, ih fun y hy => notLater y (List.mem_cons_of_mem x hy)]
    rfl

/-! ### What a firing touches -/

/-- Of `v` only the scheduler, the output lines and the reports may differ in `t`. -/
def State.FiresInto (v t : State) : Prop :=
  t = ((v.withSched t.sched).withOut t.out).withPort { v.port with reports := t.port.reports, attn := t.port.attn }

theorem State.FiresInto.trans {u v w : State} (first : u.FiresInto v) (second : v.FiresInto w) : u.FiresInto w :=
  calc w
    _ = ((v.withSched w.sched).withOut w.out).withPort { v.port with reports := w.port.reports, attn := w.port.attn } := second
    _ = _ := congrArg (fun x : State => ((x.withSched w.sched).withOut w.out).withPort
      { x.port with reports := w.port.reports, attn := w.port.attn }) first

theorem State.told_firesInto (u v : State) (e : Entry) : v.FiresInto (u.told v e) := by
  unfold told
  dsimp only
  split <;> rfl

theorem State.reinsert_firesInto (v : State) (rest : Option Entry) : v.FiresInto (v.reinsert rest) := by
  cases rest <;> rfl

/-! ### One firing -/

/-- A firing of an entry that does not fall due again at once. -/
def FiresOnce (e : Entry) (now : Time) : Prop := ∀ next, (stepEntry e now).1 = some next → next.due ≠ now

/-- The output lines after the firing of an entry (R121, R122). -/
def State.linesFired (u : State) (lines : Vector OutLine 8) (e : Entry) : Vector OutLine 8 :=
  lines.set e.line ((lines[e.line]).fired (u.defaultHigh e.line) u.now e.kind (e.width.getD 0) e.id e.due)

/-- The FIRED report of an entry (R105). -/
def State.firedReport (u : State) (e : Entry) : Report :=
  { detail := .fired e.id e.line e.kind e.due (stepEntry e u.now).2.2, stamp := u.stampTime, unsynced := u.unsynced }

/-- The scheduler after the firing of an entry: what its step leaves is placed again (R106, R108). -/
def State.schedFired (u : State) (q : Scheduler) (e : Entry) : Scheduler :=
  (stepEntry e u.now).1.elim q fun x =>
    { queue := placeIn u.orderBase { x with sequence := q.counter + 1 } q.queue, counter := q.counter + 1 }

section

variable {v : State} {e : Entry}

theorem State.fire_once (once : FiresOnce e v.now) : v.fire e none = (v.told v e).reinsert (stepEntry e v.now).1 := by
  cases left : (stepEntry e v.now).1 with
  | none => exact fire_ended left
  | some next => exact fire_placed left (once next left)

/-- A firing in time: what it makes of the lines, the reports and the scheduler. -/
theorem State.fire_once_effect (once : FiresOnce e v.now) : v.FiresInto (v.fire e none)
    ∧ (v.fire e none).out.lines = v.linesFired v.out.lines e
    ∧ (v.fire e none).port.reports = (if e.notify then arrive v.port.reports (v.firedReport e) else v.port.reports)
    ∧ (v.fire e none).sched = v.schedFired v.sched e := by
  rw [fire_once once]
  refine ⟨(told_firesInto v v e).trans (reinsert_firesInto _ _), ?_, ?_, ?_⟩
  · rw [out_reinsert]
    unfold told
    dsimp only
    split <;> rfl
  · rw [port_reinsert]
    unfold told
    dsimp only
    split <;> rfl
  · unfold schedFired
    cases (stepEntry e v.now).1 with
    | none => exact sched_told v v e
    | some next =>
      exact congrArg State.sched (placeEntry_as (u := v) (counter := v.sched.counter) (v.owed_told v e) (v.clock_told v e)
        (v.sched_told v e) next)

end

/-! ### Firings one after another -/

section

variable {u v : State} (clock : v.clock = u.clock) (cfg : v.cfg = u.cfg) (owed : v.owed = u.owed)

include clock cfg

theorem State.linesFired_congr : v.linesFired = u.linesFired := by
  unfold linesFired defaultHigh config State.now
  rw [clock, cfg]

omit cfg

theorem State.firedReport_congr : v.firedReport = u.firedReport := by
  unfold firedReport stampTime unsynced valid State.now
  rw [clock]

include owed

theorem State.schedFired_congr : v.schedFired = u.schedFired := by
  unfold schedFired orderBase State.now
  rw [clock, owed]

end

/-- The entries of a list fire in its order: each hands its line its kind, is told of when it notifies, and goes on as its step says. -/
theorem State.fireAll_effect (l : List Entry) (v : State) (once : ∀ e ∈ l, FiresOnce e v.now) :
    v.FiresInto (l.foldl (fun s e => s.fire e none) v)
    ∧ (l.foldl (fun s e => s.fire e none) v).out.lines = l.foldl v.linesFired v.out.lines
    ∧ (l.foldl (fun s e => s.fire e none) v).port.reports = ((l.filter (·.notify)).map v.firedReport).foldl arrive v.port.reports
    ∧ (l.foldl (fun s e => s.fire e none) v).sched = l.foldl v.schedFired v.sched := by
  induction l generalizing v with
  | nil => exact ⟨rfl, rfl, rfl, rfl⟩
  | cons e rest ih =>
    obtain ⟨touches, lines, reports, sched⟩ := fire_once_effect (once e List.mem_cons_self)
    have clock := v.clock_fire e none
    have now : (v.fire e none).now = v.now := by simp [State.now]
    obtain ⟨touchesRest, linesRest, reportsRest, schedRest⟩ :=
      ih (v.fire e none) fun x hx => now.symm ▸ once x (List.mem_cons_of_mem e hx)
    rw [linesFired_congr clock (v.cfg_fire e none), lines] at linesRest
    rw [firedReport_congr clock, reports] at reportsRest
    rw [schedFired_congr clock (v.owed_fire e none), sched] at schedRest
    refine ⟨touches.trans touchesRest, linesRest, reportsRest.trans ?_, schedRest⟩
    rw [List.filter_cons]
    split <;> rfl

/-- The firing of a tick whose due entries stand at the front of the queue, each of which fires once (R104–R108). -/
theorem State.exec_firing_due {s : State} {c : Time} {due rest : List Entry} (member : s.member.state = .member)
    (owed : s.owed.fireFrom = some c) (queue : s.sched.queue = due ++ rest) (isDue : ∀ e ∈ due, dueIn c s.now e = true)
    (waits : ∀ e ∈ rest, dueIn c s.now e = false) (once : ∀ e ∈ due, FiresOnce e s.now) : ∃ t, exec .firing s = .next t
      ∧ t = (((s.withSched t.sched).withOut t.out).withOwed { s.owed with fireFrom := none }).withPort
          { s.port with reports := t.port.reports, attn := t.port.attn }
      ∧ t.out.lines = due.foldl s.linesFired s.out.lines
      ∧ t.port.reports = ((due.filter (·.notify)).map s.firedReport).foldl arrive s.port.reports
      ∧ t.sched = due.foldl (s.withoutDue c).schedFired { s.sched with queue := rest } := by
  have fires : s.sched.queue.filter (dueIn c s.now) = due := by
    rw [queue, List.filter_append, List.filter_eq_self.2 isDue, List.filter_eq_nil_iff.2 fun e he => by simp [waits e he],
      List.append_nil]
  have stays : s.sched.queue.filter (fun e => !dueIn c s.now e) = rest := by
    rw [queue, List.filter_append, List.filter_eq_nil_iff.2 fun e he => by simp [isDue e he],
      List.filter_eq_self.2 fun e he => by simp [waits e he], List.nil_append]
  have begun : s.withoutDue c = (s.withOwed { s.owed with fireFrom := none }).withSched { s.sched with queue := rest } := by
    rw [withoutDue, stays]
  have fired : s.fireDue c = due.foldl (fun s e => s.fire e none) (s.withoutDue c) := by rw [fireDue_eq, fires]
  have effect := fireAll_effect due (s.withoutDue c) once
  rw [← fired] at effect
  obtain ⟨touches, lines, reports, sched⟩ := effect
  refine ⟨s.fireDue c, by rw [exec_firing, fireOwed_of_member member owed], ?_, lines, reports, ?_⟩
  · unfold FiresInto at touches
    rw [begun] at touches
    exact touches
  · rw [sched, begun]
    rfl

/-! ### The statement -/

section

variable {e : Entry} {now : Time}

theorem firesOnce_of_once (once : e.rep = none) : FiresOnce e now := fun next left => by
  rw [stepEntry_once once] at left
  cases left

/-- An entry whose next due time is after now fires once. -/
theorem firesOnce_of_later (later : ∀ r, e.inForce = some r → r.count ≠ 1 → isAfter (e.due + r.period) now = true) :
    FiresOnce e now := fun next left => by
  cases inForce : e.inForce with
  | none =>
    rw [stepEntry_once (Option.map_eq_none_iff.1 inForce)] at left
    cases left
  | some r =>
    by_cases last : r.count = 1
    · rw [stepEntry_last inForce last] at left
      cases left
    · have after := later r inForce last
      rw [stepEntry_inTime inForce last (not_isBefore_of_isAfter after)] at left
      obtain rfl := Option.some.inj left
      exact fun dueNow => absurd (isAfter_self now) (by simpa [Entry.stepped] using dueNow ▸ after)

end

/-- Settles O16: the due entries fire one after another by `State.fireAll_effect`; a one-shot entry at the front is the list of one. -/
theorem firing : Obligations.Firing := by
  refine ⟨placesInOrder, fun s c e rest member owed queue once after past waits => ?front,
    fun s c due rest member owed queue isDue waits => ?list⟩
  case front =>
    have notDue : ∀ x ∈ rest, State.dueIn c s.now x = false := fun x hx => by rw [State.dueIn, waits x hx, Bool.not_true, Bool.and_false]
    have isDue : ∀ x ∈ [e], State.dueIn c s.now x = true := fun x hx => by
      rw [List.mem_singleton.1 hx, State.dueIn, after, past]
      rfl
    obtain ⟨t, took, frame, lines, reports, sched⟩ := State.exec_firing_due (due := [e]) member owed queue isDue notDue fun x hx =>
      firesOnce_of_once (List.mem_singleton.1 hx ▸ once)
    have ended : stepEntry e s.now = (none, 0, none) := stepEntry_once once
    have sched : t.sched = { s.sched with queue := rest } := by
      rw [sched, List.foldl_cons, List.foldl_nil, State.schedFired, show (s.withoutDue c).now = s.now from rfl, ended]
      rfl
    have lines : t.out.lines = s.linesFired s.out.lines e := lines
    refine ⟨t, took, ?_, ?_, fun l other => ?_, fun high edge held => ?_⟩
    · rw [sched] at frame
      exact frame
    · rw [reports, List.filter_singleton]
      cases e.notify with
      | false => rfl
      | true =>
        have told : s.firedReport e = { detail := .fired e.id e.line e.kind e.due none, stamp := s.stampTime, unsynced := s.unsynced } := by
          rw [State.firedReport, ended]
        rw [← told]
        rfl
    · rw [lines, State.linesFired]
      exact Vector.getElem_set_ne _ _ fun same => other (Fin.ext same.symm)
    · have own : t.out.lines[e.line]
          = (OutLine.driven high edge).fired (s.defaultHigh e.line) s.now e.kind (e.width.getD 0) e.id e.due := by
        rw [lines, State.linesFired, held]
        exact Vector.getElem_set_self _
      rw [own]
      refine ⟨fun kind => by rw [kind]; rfl, fun kind => by rw [kind]; rfl, fun kind => by rw [kind]; rfl, fun kind w width => ?_⟩
      rw [kind, width]
      rfl
  case list =>
    intro used left later
    have once : ∀ e ∈ due, FiresOnce e s.now := fun e he => firesOnce_of_later fun r inForce more => by
      obtain ⟨held, rep, rfl⟩ := Option.map_eq_some_iff.1 inForce
      exact later e he held rep more
    obtain ⟨t, took, frame, lines, reports, sched⟩ := State.exec_firing_due member owed queue
      (fun e he => by rw [State.dueIn, (isDue e he).1, (isDue e he).2]; rfl)
      (fun e he => by
        have := waits e he
        rw [State.dueIn, Bool.eq_false_iff]
        simpa using this) once
    have inTime (e : Entry) (he : e ∈ due) (held : Repeat) (rep : e.rep = some held) (more : (used e held).count ≠ 1) :=
      stepEntry_inTime (e := e) (r := used e held) (now := s.now) (by rw [Entry.inForce, rep]; rfl) more
        (not_isBefore_of_isAfter (later e he held rep more))
    refine ⟨t, took, frame, lines, reports.trans ?_, sched.trans ?_⟩
    · refine congrArg (List.foldl arrive s.port.reports) (List.map_congr_left fun e he => ?_)
      have he : e ∈ due := List.mem_of_mem_filter he
      unfold State.firedReport
      refine congrArg (fun r => Report.mk (.fired e.id e.line e.kind e.due r) s.stampTime s.unsynced) ?_
      cases rep : e.rep with
      | none => rw [stepEntry_once rep]; rfl
      | some held =>
        rw [Option.map_some]
        split
        · rename_i last
          rw [stepEntry_last (r := used e held) (by rw [Entry.inForce, rep]; rfl) last]
        · rename_i more
          rw [inTime e he held rep more]
          rfl
    · refine List.foldl_ext _ _ _ fun q e he => ?_
      unfold State.schedFired
      cases rep : e.rep with
      | none =>
        rw [stepEntry_once rep]
        rfl
      | some held =>
        dsimp only
        split
        · rename_i last
          rw [stepEntry_last (r := used e held) (by rw [Entry.inForce, rep]; rfl) last]
          rfl
        · rename_i more
          rw [show (s.withoutDue c).now = s.now from rfl, inTime e he held rep more]
          rfl

end Sys2Proof.Machine
end

section
/-! PROOFS. POST, AMEND and CANCEL with local scope (R95–R112, R141, R145, R175): the answer of each to the outcome of its claim. -/

namespace Sys2Proof.Machine

/-! ### Amendments and cancellations by their results -/

section

variable {s : State} {id : ActionId} {new : Repeat} (member : s.member.state = .member)

/-- The first entry of an id is the one that an amendment finds. -/
theorem State.find_first {before after : List Entry} {e : Entry} (queue : s.sched.queue = before ++ e :: after) (named : e.id = id)
    (others : ∀ x ∈ before, x.id ≠ id) : s.sched.queue.find? (fun x => x.id = id) = some e := by
  rw [List.find?_eq_some_iff_append]
  exact ⟨decide_eq_true named, before, after, queue, fun x hx => by simp [others x hx]⟩

include member

theorem State.amendEntry_absent (absent : ∀ x ∈ s.sched.queue, x.id ≠ id) : s.amendEntry id new = (s, .notFound) := by
  have none : s.sched.queue.find? (fun x => x.id = id) = none := List.find?_eq_none.2 fun x hx => by simpa using absent x hx
  simp [amendEntry, member, none]

section

variable {e : Entry} (found : s.sched.queue.find? (fun x => x.id = id) = some e)

include found

/-- A one-shot action is not amended (R109). -/
theorem State.amendEntry_notRepeating (once : e.rep = none) : s.amendEntry id new = (s, .notRepeating) := by
  simp [amendEntry, member, found, once]

theorem State.amendEntry_badField (repeats : e.rep.isSome = true) (bad : ¬ (16 ≤ new.period.toNat ∧ new.period.toNat < 2 ^ 31)) :
    s.amendEntry id new = (s, .badField) := by
  have outside : periodOk new.period = false := Bool.eq_false_iff.2 (bad ∘ (periodOk_iff _).1)
  simp [amendEntry, member, found, Option.ne_none_iff_isSome.2 repeats, outside]

end

/-- An amendment in range sets the pending values of the one entry of its id (R109). -/
theorem State.amendEntry_applied {before after : List Entry} {e : Entry} (queue : s.sched.queue = before ++ e :: after)
    (named : e.id = id) (others : ∀ x ∈ before ++ after, x.id ≠ id) (repeats : e.rep.isSome = true)
    (good : 16 ≤ new.period.toNat ∧ new.period.toNat < 2 ^ 31) : s.amendEntry id new
      = (s.withSched { s.sched with queue := before ++ { e with pendingRep := some new } :: after }, .applied) := by
  simp [amendEntry, member, find_entry queue named others, Option.ne_none_iff_isSome.2 repeats, (periodOk_iff _).2 good,
    map_entry queue named others fun x => { x with pendingRep := some new }]

theorem State.cancelEntry_absent (absent : ∀ x ∈ s.sched.queue, x.id ≠ id) : s.cancelEntry id = (s, .notFound) := by
  have none : s.sched.queue.any (fun x => x.id = id) = false := by simpa using absent
  simp [cancelEntry, member, none]

theorem State.cancelEntry_held (held : ∃ x ∈ s.sched.queue, x.id = id) : s.cancelEntry id = (s.without id, .removed) := by
  have some : s.sched.queue.any (fun x => x.id = id) = true := by simpa using held
  simp [cancelEntry, member, some, without]

end

/-- The entries of an id leave the queue, the test written as their negation. -/
theorem State.without_eq (s : State) (id : ActionId) :
    s.without id = s.withSched { s.sched with queue := s.sched.queue.filter (fun x => !decide (x.id = id)) } := by
  simp only [without, ne_eq, decide_not]

/-! ### The commands -/

section

variable {s : State} {n : Nat} {selector serial : Half} {new : Repeat} (least : 1 ≤ n) (most : n ≤ 16)
  (member : s.member.state = .member)

include least most member

theorem exec_cancel_local (work : s.port.work = .current (.cancel 0 selector serial) n) : exec .cancel s = .next
    ((s.cancelEntry { origin := s.number, serial := serial }).1.answer (.cancel 0 selector serial)
      (State.cancelCode (s.cancelEntry { origin := s.number, serial := serial }).2) []) :=
  (s.exec_row (.cancel 0 selector serial) n work least most).trans (congrArg _ (State.runCancel_of_member member))

theorem exec_amend_local (work : s.port.work = .current (.amend 0 selector serial new) n) : exec .amend s = .next
    ((s.amendEntry { origin := s.number, serial := serial } new).1.answer (.amend 0 selector serial new)
      (State.amendCode (s.amendEntry { origin := s.number, serial := serial } new).2) []) :=
  (s.exec_row (.amend 0 selector serial new) n work least most).trans (congrArg _ (State.runAmend_of_member member))

theorem exec_post_local {a : ActionFields} (work : s.port.work = .current (.post 0 a) n) (own : a.serial.toNat < 0x8000) :
    exec .post s = .next ((s.insert (a.entry s.number .localCommand)).1.answer (.post 0 a)
      (State.insertCode (s.insert (a.entry s.number .localCommand)).2) []) := by
  have free : ¬ Config.firstReflexSerial.toNat ≤ a.serial.toNat := Nat.not_le.2 own
  exact (s.exec_row (.post 0 a) n work least most).trans
    (congrArg _ ((State.runPost_of_member member).trans (if_neg free)))

end

/-- Settles O44: each command answers with the result of its claim. -/
theorem amendAndCancelLocal : Obligations.AmendAndCancelLocal := by
  intro s n selector serial least most member
  refine ⟨fun work => ?cancel, fun new work => ?amend⟩
  case cancel =>
    rw [exec_cancel_local least most member work]
    refine ⟨fun absent => ?_, fun held => ?_⟩
    · rw [State.cancelEntry_absent member fun x hx => of_decide_eq_false (absent x hx)]
      rfl
    · rw [State.cancelEntry_held member (held.imp fun x => And.imp_right of_decide_eq_true), State.without_eq]
      rfl
  case amend =>
    rw [exec_amend_local least most member work]
    refine ⟨fun absent => ?_, fun before e after queue named others => ?_⟩
    · rw [State.amendEntry_absent member fun x hx => of_decide_eq_false (absent x hx)]
      rfl
    · have named := of_decide_eq_true named
      have others := fun x hx => of_decide_eq_false (others x hx)
      have found := State.find_first queue named fun x hx => others x (List.mem_append_left _ hx)
      refine ⟨fun once => ?_, fun repeats bad => ?_, fun repeats least short => ?_⟩
      · rw [State.amendEntry_notRepeating member found once]
        rfl
      · rw [State.amendEntry_badField member found repeats bad]
        rfl
      · rw [State.amendEntry_applied member queue named others repeats ⟨least, short⟩]
        rfl

/-! ### Insertions by their results -/

section

variable {s : State} {e : Entry} (member : s.member.state = .member)

include member

theorem State.insert_badLine (disabled : s.enabled e.line = false) : s.insert e = (s, .badLine) := by
  simp [insert, member, disabled]

theorem State.insert_badField (enabled : s.enabled e.line = true) (bad : fieldsOk e = false) : s.insert e = (s, .badField) := by
  simp [insert, member, enabled, bad]

theorem State.insert_queueFull (enabled : s.enabled e.line = true) (good : fieldsOk e = true)
    (absent : ∀ x ∈ s.sched.queue, x.id ≠ e.id) (full : 32 ≤ s.sched.queue.length) : s.insert e = (s, .queueFull) := by
  have none : s.sched.queue.any (fun x => x.id = e.id) = false := by simpa using absent
  simp [insert, member, enabled, good, none, Config.actionPlaces, full]

/-- An action due after now takes its place, a queued one of its id removed (R95, R98). -/
theorem State.insert_placed (enabled : s.enabled e.line = true) (good : fieldsOk e = true)
    (room : (∃ x ∈ s.sched.queue, x.id = e.id) ∨ s.sched.queue.length < 32) (after : isAfter e.due s.now = true) :
    s.insert e = ((s.without e.id).placeEntry e, .inserted) :=
  (insert_of_room member enabled good room).trans (insertByDue_placed (u := s.without e.id) after)

end

/-- Settles O41: the checks in their order, each answered by its code, and the placement. -/
theorem postLocal : Obligations.PostLocal := by
  refine ⟨placesInOrder, fun s n scope a least most work member => ?_⟩
  have fields := a.fieldsOk_entry s.number .localCommand
  refine ⟨fun outside => ?scope, fun inside reflex => ?serial, ?line, ?field, ?replaced, ?new⟩
  case scope =>
    have row : exec .post s = .next (s.runPost scope a) := s.exec_row (.post scope a) n work least most
    rw [row, State.runPost_of_member member, if_pos outside]
    rfl
  case serial =>
    have row : exec .post s = .next (s.runPost scope a) := s.exec_row (.post scope a) n work least most
    have taken : Config.firstReflexSerial.toNat ≤ a.serial.toNat := reflex
    rw [row, State.runPost_of_member member, if_neg (Nat.not_lt.2 inside), if_pos taken]
    rfl
  case line =>
    rintro rfl own disabled
    rw [exec_post_local least most member work own, State.insert_badLine member disabled]
    rfl
  case field =>
    rintro rfl own enabled bad
    have bad : fieldsOk (a.entry s.number .localCommand) = false := Bool.eq_false_iff.2 fun good => by
      obtain ⟨periods, width⟩ := fields.1 good
      rcases bad with ⟨r, rep, outside⟩ | ⟨pulse, zero⟩
      · exact outside (periods r rep)
      · exact width pulse zero
    rw [exec_post_local least most member work own, State.insert_badField (e := a.entry s.number .localCommand) member enabled bad]
    rfl
  case replaced =>
    rintro rfl own enabled periods width held after
    rw [exec_post_local least most member work own, State.insert_placed member enabled (fields.2 ⟨periods, width⟩) (.inl held) after]
    rfl
  case new =>
    rintro rfl own enabled periods width absent
    have good := fields.2 ⟨periods, width⟩
    rw [exec_post_local least most member work own]
    refine ⟨fun full => ?_, fun room after => ?_⟩
    · rw [State.insert_queueFull member enabled good absent full]
      rfl
    · rw [State.insert_placed member enabled good (.inr room) after,
        State.without_of_absent (id := (a.entry s.number .localCommand).id) absent]
      rfl

/-- Settles O42: the action fires at its insertion, or is dropped; what a repeating one makes of the state is
`State.fire_firesRepeating`. -/
theorem postLate : Obligations.PostLate := by
  intro s n a least most work member own enabled periods width id room
  have good := (a.fieldsOk_entry s.number .localCommand).2 ⟨periods, width⟩
  have row := exec_post_local least most member work own
  rw [State.insert_of_room member enabled good room] at row
  generalize he : a.entry s.number .localCommand = e at row
  have due : e.due = a.due := by rw [← he]; rfl
  have sameId : e.id = id := by rw [← he]; rfl
  rw [sameId] at row
  have fires (now : e.due = s.now ∨ (isBefore e.due s.now = true ∧ s.config.latePolicy = .fire)) :
      (s.without id).insertByDue e = ((s.without id).fire e ((s.without id).lateness e), .inserted) :=
    State.insertByDue_fires (u := s.without id) now
  refine ⟨_, row, fun once dueNow => ?now, fun before drop => ?dropped, fun once before fire => ?late, fun repeats now => ?repeating⟩
  case dropped =>
    rw [State.insertByDue_dropped (u := s.without id) (e := e) (due ▸ before) drop, ← he]
    rfl
  case repeating =>
    rw [fires (due ▸ now), ← he]
    exact ⟨_, State.fire_firesRepeating (s.without id) (a.entry s.number .localCommand), rfl⟩
  all_goals
    have ended : stepEntry e (s.without id).now = (none, 0, none) := stepEntry_once (by rw [← he]; exact once)
    have told := State.fire_ended (u := s.without id) (l := (s.without id).lateness e) (congrArg Prod.fst ended)
    rw [State.toldLate_lateness, State.told, ended] at told
  case now =>
    have same : e.due = (s.without id).now := due.trans dueNow
    rw [if_pos same] at told
    rw [fires (.inl (due.trans dueNow)), told, ← he]
    unfold ActionFields.entry
    cases a.notify <;> rfl
  case late =>
    obtain ⟨_, other⟩ := not_isAfter_of_isBefore before
    have missed : e.due ≠ (s.without id).now := fun now => other (due.symm.trans now)
    rw [if_neg missed] at told
    rw [fires (.inr ⟨due.symm ▸ before, fire⟩), told, ← he]
    unfold ActionFields.entry
    cases a.notify <;> rfl

end Sys2Proof.Machine
end

section
/-! PROOFS. A valid AMEND or CANCEL of another station (R109, R110, R112, R135, R138, R139): its claim on the action queue, handed over or
taken at once, and the request that a refused amendment makes (log 25). -/

namespace Sys2Proof.Machine

/-! ### A claim of any payload -/

section

variable {s : State} {sender : Station} {p : Payload} {rest : List HandedOn}

/-- The claim handed on first, with the request that its refusal makes (log 25). -/
theorem State.takeHandedOn_of_claim (first : s.owed.exchange = .claim sender p :: rest) : s.takeHandedOn =
    ((s.withOwed { s.owed with exchange := rest }).applyClaim sender .remote p).2.elim
      ((s.withOwed { s.owed with exchange := rest }).applyClaim sender .remote p).1
      fun (id, reason) => State.refusalFirst id.origin id.serial rest
        ((s.withOwed { s.owed with exchange := rest }).applyClaim sender .remote p).1 reason := by
  unfold takeHandedOn
  rw [first]
  dsimp only
  rcases (s.withOwed { s.owed with exchange := rest }).applyClaim sender .remote p with ⟨v, none | ⟨id, reason⟩⟩ <;> rfl

/-- A claim taken at once, and the request that its refusal makes (R136–R139). -/
def State.claimed (s : State) (sender : Station) (p : Payload) : State :=
  (s.applyClaim sender .remote p).2.elim (s.applyClaim sender .remote p).1
    fun (id, reason) => (s.applyClaim sender .remote p).1.refuse id reason

theorem State.line_claimed : (s.claimed sender p).line = s.line := by
  have line := s.line_applyClaim sender .remote p
  unfold claimed
  cases (s.applyClaim sender .remote p).2 with
  | none => exact line
  | some refusal => exact (line_refuse _ _ _).trans line

/-- With nothing handed on before it, a claim and its request are all that is taken. -/
theorem State.takeAllHandedOn_of_claim (none : s.owed.exchange = []) :
    (s.withOwed { s.owed with exchange := s.owed.exchange ++ [.claim sender p] }).takeAllHandedOn = s.claimed sender p := by
  have same (v : State) (owed : v.owed = s.owed) : v.withOwed { v.owed with exchange := [] } = v := by
    rw [owed, ← none, ← owed]
    rfl
  rw [none, List.nil_append]
  generalize hu : s.withOwed { s.owed with exchange := [.claim sender p] } = u
  have held : u.owed.exchange = [.claim sender p] := by rw [← hu]; rfl
  have back : u.withOwed { u.owed with exchange := [] } = s := by rw [← hu]; exact same s rfl
  have twice : u.takeAllHandedOn = u.takeHandedOn.takeHandedOn := by unfold takeAllHandedOn; rw [held]; rfl
  rw [twice, takeHandedOn_of_claim held, back, claimed]
  have owed := s.owed_applyClaim sender .remote p
  generalize s.applyClaim sender .remote p = outcome at owed
  obtain ⟨v, result⟩ := outcome
  cases result with
  | none => exact takeHandedOn_of_nil ((congrArg Owed.exchange owed).trans none)
  | some refusal =>
    obtain ⟨id, reason⟩ := refusal
    refine (takeHandedOn_refusal (s := refusalFirst id.origin id.serial [] v reason) rfl).trans ?_
    exact congrArg (refuse · id reason) (same v owed)

/-- Outside MEMBER every claim is answered NOT MEMBER, with no report (R135, log 25). -/
theorem State.applyClaim_of_not_member (origin : Station) (source : Source) (other : s.member.state ≠ .member) :
    s.applyClaim origin source p = (s, none) := by
  cases p with
  | action a => rw [applyClaim, show s.insert (a.entry origin source) = (s, .notMember) from if_pos other]; rfl
  | amend _ serial new =>
    rw [applyClaim, show s.amendEntry { origin := origin, serial := serial } new = (s, .notMember) from if_pos other]; rfl
  | cancel _ serial =>
    rw [applyClaim, show s.cancelEntry { origin := origin, serial := serial } = (s, .notMember) from if_pos other]
  | beacon | event | refuse => rfl

end

/-! ### The frame -/

/-- The payload is an AMEND or a CANCEL with this selector and serial. -/
abbrev Payload.Changes (p : Payload) (selector serial : Half) : Prop :=
  p = .cancel selector serial ∨ ∃ new, p = .amend selector serial new

/-- The exchange unit has a valid frame in hand, and the receiver waits (R15). -/
def State.afterValid (s : State) (samples : List Bool) : State :=
  s.withLine { s.line with
    receiver := .wait, sof := none, frame := none, dominantRun := runAfter s.line.dominantRun samples, recessiveRun := 0 }

section

variable {s : State} {f : PartialFrame} {samples : List Bool} {sender : Station} {p : Payload} {selector serial : Half}
  (changes : p.Changes selector serial)

include changes

/-- The selector of an AMEND or CANCEL decides alone whether it passes the windows (R134). -/
theorem State.admits_of_changes : s.admits p = s.passes selector := by
  rcases changes with rfl | ⟨new, rfl⟩ <;> rfl

variable (valid : takeSamples f samples = .valid { sender := sender, payload := p }) (other : sender ≠ s.number)

include valid other

/-- A valid AMEND or CANCEL of another station, at the exchange unit (R15, R135). -/
theorem State.receive_of_changes (atOnce : Bool) : s.receive atOnce f samples = (s.afterValid samples).takeRemote atOnce sender p := by
  unfold receive
  rw [valid]
  rcases changes with rfl | ⟨new, rfl⟩ <;> exact if_neg other

variable (receives : s.line.receiver = .receive) (frame : s.line.frame = some f)

include receives frame

theorem exec_frameCompletion_passedOver {event : FrameEvent} (of : State.samplesOf event samples)
    (passed : s.member.state ≠ .member ∨ s.passes selector = false) :
    exec (.frameCompletion event) s = .next (s.afterValid samples) := by
  obtain ⟨atOnce, took⟩ := exec_frameCompletion_receive of receives frame
  rw [took, State.receive_of_changes changes valid other]
  refine congrArg _ (if_neg fun h => ?_)
  obtain ⟨member, admits⟩ := Bool.and_eq_true_iff.1 h
  rw [State.admits_of_changes changes] at admits
  rcases passed with notMember | out
  · exact notMember (of_decide_eq_true member)
  · exact Bool.false_ne_true (out.symm.trans admits)

variable (member : s.member.state = .member) (passes : s.passes selector = true)

include member passes

theorem State.complete_of_admitted (atOnce : Bool) : s.complete atOnce samples =
    if atOnce then ((s.afterValid samples).withOwed { s.owed with exchange := s.owed.exchange ++ [.claim sender p] }).takeAllHandedOn
    else (s.afterValid samples).withOwed { s.owed with exchange := s.owed.exchange ++ [.claim sender p] } := by
  have admits : (s.afterValid samples).admits p = true := (State.admits_of_changes changes).trans passes
  rw [State.complete_of_receive atOnce samples receives frame, State.receive_of_changes changes valid other]
  exact if_pos (Bool.and_eq_true_iff.2 ⟨decide_eq_true member, admits⟩)

theorem exec_frameCompletion_handOver : exec (.frameCompletion (.handOver samples)) s = .next
    ((s.afterValid samples).withOwed { s.owed with exchange := s.owed.exchange ++ [.claim sender p] }) :=
  congrArg _ (State.complete_of_admitted changes valid other receives frame member passes false)

theorem exec_frameCompletion_whole (none : s.owed.exchange = []) :
    exec (.frameCompletion (.whole samples)) s = .next ((s.afterValid samples).claimed sender p) :=
  congrArg _ ((State.complete_of_admitted changes valid other receives frame member passes true).trans
    (State.takeAllHandedOn_of_claim (s := s.afterValid samples) none))

end

/-! ### The claims of CANCEL and AMEND -/

section

variable {s : State} {sender : Station} {selector serial : Half} {new : Repeat}

theorem State.applyClaim_cancel (member : s.member.state = .member) :
    s.applyClaim sender .remote (.cancel selector serial) = (s.without { origin := sender, serial := serial }, none) :=
  congrArg (·, none) (cancelEntry_fst member)

/-- An amendment that its result does not refuse leaves no request. -/
theorem State.claimed_amend {v : State} {result : AmendResult}
    (amended : s.amendEntry { origin := sender, serial := serial } new = (v, result)) (kept : result.reason = none) :
    s.claimed sender (.amend selector serial new) = v := by
  simp only [claimed, applyClaim, amended, kept, Option.map_none, Option.elim_none]

/-- A refused amendment requests a REFUSE with its reason (R110, R20). -/
theorem State.claimed_amend_refused {result : AmendResult} {reason : Byte} (member : s.member.state = .member)
    (amended : s.amendEntry { origin := sender, serial := serial } new = (s, result)) (refused : result.reason = some reason)
    (room : s.cont.queue.length < 8) : s.claimed sender (.amend selector serial new)
      = s.withCont { s.cont with queue := s.cont.queue ++ [.fresh (.refuse sender serial reason) false none] } := by
  simp only [claimed, applyClaim, amended, refused, Option.map_some, Option.elim_some]
  rw [refuse_of_member _ _ member, if_pos room]

end

/-- A claim of an AMEND handed on is an amendment, whose refusal makes a request (R138, R110). -/
theorem State.takeHandedOn_amend {s : State} {sender : Station} {selector serial : Half} {new : Repeat} {rest : List HandedOn}
    (first : s.owed.exchange = .claim sender (.amend selector serial new) :: rest) : s.takeHandedOn =
      (s.withOwed { s.owed with exchange := rest }).amendOr { origin := sender, serial := serial } new
        (State.refusalFirst sender serial rest) := by
  rw [takeHandedOn_of_claim first, applyClaim, amendOr]
  rcases (s.withOwed { s.owed with exchange := rest }).amendEntry { origin := sender, serial := serial } new with ⟨v, result⟩
  cases result <;> rfl

/-- Settles O30: the frame waits as its claim, and the claim is an amendment or a cancellation by its result. -/
theorem inboundAmendAndCancel : Obligations.InboundAmendAndCancel := by
  refine ⟨fun s f samples sender selector serial receives frame member other passes => ⟨?handOver, ?cancelled, ?amended⟩,
    ?cancelClaim, ?amendClaim, ?notMember, ?passedOver⟩
  case handOver =>
    intro p changes valid
    exact ⟨_, exec_frameCompletion_handOver changes valid other receives frame member passes, rfl, rfl⟩
  case cancelled =>
    intro none valid
    refine ⟨_, exec_frameCompletion_whole (.inl rfl) valid other receives frame member passes none, ?_⟩
    rw [State.claimed, State.applyClaim_cancel (s := s.afterValid samples) member, State.without_eq]
    exact ⟨rfl, rfl⟩
  case amended =>
    intro new none valid
    have took := exec_frameCompletion_whole (.inr ⟨new, rfl⟩) valid other receives frame member passes none
    generalize ht : (s.afterValid samples).claimed sender (.amend selector serial new) = t at took
    have member : (s.afterValid samples).member.state = .member := member
    have line : t.line = (s.afterValid samples).line := by rw [← ht, State.line_claimed]
    have base : s.withLine t.line = s.afterValid samples := by rw [line]; rfl
    refine ⟨t, took, congrArg LineUnit.receiver line, ?_⟩
    rw [base, ← ht]
    refine ⟨fun absent => ?_, fun before e after queue named others repeats least short => ?_,
      fun before e after queue named others once room => ?_, fun before e after queue named others repeats bad room => ?_⟩
    · exact State.claimed_amend (State.amendEntry_absent member fun x hx => of_decide_eq_false (absent x hx)) rfl
    · exact State.claimed_amend (State.amendEntry_applied member queue (of_decide_eq_true named)
        (fun x hx => of_decide_eq_false (others x hx)) repeats ⟨least, short⟩) rfl
    · have found := State.find_first (s := s.afterValid samples) queue (of_decide_eq_true named)
        fun x hx => of_decide_eq_false (others x hx)
      exact State.claimed_amend_refused member (State.amendEntry_notRepeating member found once) rfl room
    · have found := State.find_first (s := s.afterValid samples) queue (of_decide_eq_true named)
        fun x hx => of_decide_eq_false (others x hx)
      exact State.claimed_amend_refused member (State.amendEntry_badField member found repeats bad) rfl room
  case cancelClaim =>
    intro s sender selector serial rest member first
    rw [exec_frameCompletion_next, State.takeHandedOn_of_claim first,
      State.applyClaim_cancel (s := s.withOwed { s.owed with exchange := rest }) member]
    rfl
  case amendClaim =>
    intro s sender selector serial new rest member first
    have took := (exec_frameCompletion_next s).trans (congrArg _ (State.takeHandedOn_amend first))
    refine ⟨fun absent => ?_, fun before e after queue named others => ⟨fun repeats good => ?_, fun once => ?_, fun repeats bad => ?_⟩⟩
    · exact took.trans (congrArg _ (State.amendOr_absent new _ member absent))
    · exact took.trans (congrArg _ (State.amendOr_applied new _ member queue named others repeats good))
    · exact took.trans (congrArg _ (State.amendOr_notRepeating new _ member queue named others once))
    · exact took.trans (congrArg _ (State.amendOr_badField new _ member queue named others repeats bad))
  case notMember =>
    intro s sender p rest other first
    rw [exec_frameCompletion_next, State.takeHandedOn_of_claim first,
      State.applyClaim_of_not_member (s := s.withOwed { s.owed with exchange := rest }) sender .remote other]
    rfl
  case passedOver =>
    intro s f event samples sender p selector serial of receives frame valid other changes passed
    exact ⟨_, exec_frameCompletion_passedOver changes valid other receives frame of passed, rfl, rfl⟩

end Sys2Proof.Machine
end

section
/-! PROOFS. The records of the output lines (R119): one line set, every line changed, and what an operation must leave of a line for R120
and R124 to hold of it. -/

namespace Sys2Proof.Machine

/-! ### The eight lines -/

theorem getElem_set_line (lines : Vector OutLine 8) (l i : Fin 8) (x : OutLine) :
    (lines.set l x)[i] = if i = l then x else lines[i] := by
  by_cases here : i = l
  · subst here
    simp
  · rw [if_neg here]
    exact Vector.getElem_set_ne l.isLt i.isLt fun same => here (Fin.ext same.symm)

@[simp] theorem getElem_mapLines (f : Fin 8 → OutLine → OutLine) (lines : Vector OutLine 8) (i : Fin 8) :
    (mapLines f lines)[i] = f i lines[i] := by
  simp [mapLines]

/-! ### A line -/

/-- A line as R120 and R124 have it: released unless it is enabled, and without an edge unless the station is MEMBER. -/
def OutLine.Fits (enabled : Bool) (state : StationState) (line : OutLine) : Prop :=
  (enabled = false → line = .released) ∧ (state ≠ .member → line.hasEdge = false)

theorem State.outputsOk_iff (s : State) : s.OutputsOk ↔ ∀ i : Fin 8, (s.out.lines[i]).Fits (s.enabled i) s.member.state := Iff.rfl

section

variable {enabled : Bool} {state after : StationState} {line changed : OutLine}

/-- A change that drives no released line and leaves an edge in MEMBER alone. -/
theorem OutLine.Fits.change (fits : line.Fits enabled state) (released : line = .released → changed = .released)
    (edge : after ≠ .member → changed.hasEdge = false) : changed.Fits enabled after := by
  obtain ⟨outside, _⟩ := fits
  exact ⟨fun disabled => released (outside disabled), edge⟩

end

/-! ### What the operations make of a line -/

section

variable (line : OutLine) (high : Bool)

/-- A teardown into LISTEN leaves no edge (R130). -/
theorem OutLine.hasEdge_resynced (toDefault : Bool) : (line.resynced high toDefault).hasEdge = false := by
  rw [resynced_eq]
  rcases line with _ | ⟨_, _ | _⟩ <;> rfl

/-- An entry into STOPPED leaves no edge (R131). -/
theorem OutLine.hasEdge_defaulted : (line.defaulted high).hasEdge = false := by cases line <;> rfl

/-- SET, CLEAR and TOGGLE leave no edge (R121, R127). -/
theorem OutLine.hasEdge_fired {kind : ActionKind} (level : kind ≠ .pulse) (now : Time) (width : Half) (id : ActionId) (due : Time) :
    (line.fired high now kind width id due).hasEdge = false := by
  cases line with
  | released => rfl
  | driven _ _ =>
    cases kind with
    | pulse => exact absurd rfl level
    | set | clear | toggle => rfl

end

/-! ### The lines of a station -/

namespace State

section

variable {s t : State} (cfg : t.cfg = s.cfg)

include cfg

/-- The mask and the default levels are the configuration's (R119, R120). -/
theorem enabled_congr : t.enabled = s.enabled := by
  unfold enabled config
  rw [cfg]

theorem defaultHigh_congr : t.defaultHigh = s.defaultHigh := by
  unfold defaultHigh config
  rw [cfg]

end

section

variable {s : State} {l : Fin 8} {high : Bool} {e : TrailingEdge}

/-- A line whose edge the last tick has reached goes to its default level (R125). -/
theorem endPulse_of_reached (held : s.out.lines[l] = .driven high (some e)) (reached : e.reached = true) :
    s.endPulse l = s.withOut { lines := s.out.lines.set l (.driven (s.defaultHigh l) none) } := by
  unfold endPulse
  rw [held]
  exact if_pos reached

end

section

variable (s : State) (levels : BitVec 8)

/-- A tick marks the edges that it reaches, in MEMBER (R125). -/
theorem out_tickNow_of_member {c : Time} (timed : s.clock.cluster = some c) (member : s.member.state = .member) :
    (s.tickNow levels).out = { lines := mapLines (fun _ line => line.ticked c s.tickClock.now) s.out.lines } := by
  rw [s.tickNow_of_timed levels timed, out_tickPort, out_tickInputs]
  unfold tickMember
  rw [if_pos (by exact member)]
  rfl

/-- Outside MEMBER a tick leaves the lines. -/
theorem out_tickNow_of_not_member (other : s.member.state ≠ .member) : (s.tickNow levels).out = s.out := by
  cases timed : s.clock.cluster with
  | none => simp [s.tickNow_of_untimed levels timed]
  | some c =>
    rw [s.tickNow_of_timed levels timed, out_tickPort, out_tickInputs]
    unfold tickMember
    rw [if_neg (by exact other)]
    rfl

end

end State

end Sys2Proof.Machine
end

section
/-! PROOFS. The end of a pulse (R125). -/

namespace Sys2Proof.Machine

/-- Settles O19: the tick marks an edge that it reaches or that is overdue, and the row ends an edge so marked. -/
theorem pulseEndsAtItsTime : Obligations.PulseEndsAtItsTime := by
  intro s levels l high e c quiet member timed held fresh
  have took : exec (.tick levels) s = .next (s.tickNow levels) := by
    rw [exec_tick, quiet]
  generalize ht : s.tickNow levels = t at took
  have now : t.now = s.tickClock.now := by simp [← ht, State.now]
  obtain ⟨_, _, _, _, _, _, cfg⟩ := s.tickNow_frame levels
  have level : t.defaultHigh = s.defaultHigh := State.defaultHigh_congr (ht ▸ cfg)
  have marked : t.out.lines[l] = .driven high (some { e with
      reached := e.overdue || (isAfter e.endTime c && !isAfter e.endTime t.now) }) := by
    rw [now, ← ht, s.out_tickNow_of_member levels timed member, getElem_mapLines, held]
    simp [OutLine.ticked, fresh]
  refine ⟨t, t.endPulse l, took, exec_pulseEnd t l, ?_⟩
  cases ends : e.overdue || (isAfter e.endTime c && !isAfter e.endTime t.now) with
  | true =>
    rw [ends] at marked
    rw [State.endPulse_of_reached marked rfl]
    refine ⟨rfl, fun m other => ?_, fun _ => ?_, fun stays => absurd (by simpa using ends) stays⟩
    · simp only [State.out_withOut, getElem_set_line, if_neg other]
    · simp only [State.out_withOut, getElem_set_line, level, if_true]
  | false =>
    rw [ends] at marked
    rw [State.endPulse_of_unmet fun high e held => by rw [marked] at held; cases held; rfl]
    refine ⟨rfl, fun _ _ => rfl, fun due => ?_, fun _ => by rw [marked, ← fresh]⟩
    exact absurd (by simpa using due) (Bool.eq_false_iff.1 ends)

end Sys2Proof.Machine
end

section
/-! PROOFS. What R120 and R124 say of the output lines, under firings and claims, edges and departures: a firing acts in MEMBER and drives
no released line, and whatever leads out of MEMBER leaves no edge. -/

namespace Sys2Proof.Machine

theorem State.member_told (u v : State) (e : Entry) : (u.told v e).member = v.member := by
  unfold told
  dsimp only
  split <;> rfl

theorem State.member_toldLate (u : State) (e : Entry) (lateness : Option (BitVec 32)) : (u.toldLate e lateness).member = u.member := by
  cases lateness <;> rfl

namespace State.OutputsOk

section

variable {s t : State} (ok : s.OutputsOk)

include ok

/-! ### Lines left, lines changed -/

/-- The lines and the mask as they were, and MEMBER not left. -/
theorem of_state (out : t.out = s.out) (cfg : t.cfg = s.cfg)
    (state : t.member.state ≠ .member → s.member.state ≠ .member) : t.OutputsOk := by
  rw [outputsOk_iff, out, enabled_congr cfg]
  exact fun i => (ok i).imp_right fun edge other => edge (state other)

/-- An operation with no part in the lines, the mask and the station state. -/
theorem of_frame (frame : t.out = s.out ∧ t.cfg = s.cfg ∧ t.member.state = s.member.state) : t.OutputsOk := by
  obtain ⟨out, cfg, state⟩ := frame
  exact ok.of_state out cfg (state ▸ id)

theorem withLine (x : LineUnit) : (s.withLine x).OutputsOk := ok
theorem withSched (x : Scheduler) : (s.withSched x).OutputsOk := ok
theorem withCap (x : CaptureUnit) : (s.withCap x).OutputsOk := ok
theorem withOwed (x : Owed) : (s.withOwed x).OutputsOk := ok

/-- One line changed: not driven where it was released, and given an edge in MEMBER alone. -/
theorem setLine {l : Fin 8} {x : OutLine} (released : s.out.lines[l] = .released → x = .released)
    (edge : s.member.state ≠ .member → x.hasEdge = false) : (s.withOut { lines := s.out.lines.set l x }).OutputsOk := by
  refine (outputsOk_iff _).2 fun i => ?_
  simp only [out_withOut, getElem_set_line]
  split
  · rename_i here
    subst here
    exact (s.outputsOk_iff.1 ok i).change released edge
  · exact ok i

/-- Every line changed, none driven that was released, and no edge given outside MEMBER. -/
theorem of_mapLines {f : Fin 8 → OutLine → OutLine} (out : t.out = { lines := mapLines f s.out.lines }) (cfg : t.cfg = s.cfg)
    (released : ∀ i, f i .released = .released) (edge : t.member.state ≠ .member → ∀ i line, (f i line).hasEdge = false) :
    t.OutputsOk := by
  refine t.outputsOk_iff.2 fun i => ?_
  rw [out, enabled_congr cfg, getElem_mapLines]
  exact (s.outputsOk_iff.1 ok i).change (fun outside => by rw [outside, released]) fun other => edge other i _

/-! ### Firings and claims on the action queue -/

/-- A firing reaches its line in MEMBER (R104, R121). -/
theorem told (member : s.member.state = .member) (u : State) (e : Entry) : (u.told s e).OutputsOk := by
  have fired := ok.setLine (l := e.line)
    (x := (s.out.lines[e.line]).fired (u.defaultHigh e.line) u.now e.kind (e.width.getD 0) e.id e.due)
    (fun outside => by rw [outside]; rfl) fun other => absurd member other
  unfold State.told
  dsimp only
  split
  · exact fired.of_frame (by simp)
  · exact fired

theorem toldLate (e : Entry) (lateness : Option (BitVec 32)) : (s.toldLate e lateness).OutputsOk := by
  cases lateness <;> exact ok

theorem reinsert (rest : Option Entry) : (s.reinsert rest).OutputsOk := ok.of_frame (by simp)

/-- An entry that falls due again at once fires twice (R108). -/
theorem fire (member : s.member.state = .member) (e : Entry) (lateness : Option (BitVec 32)) : (s.fire e lateness).OutputsOk := by
  have once := (ok.toldLate e lateness).told (by rw [member_toldLate, member]) s e
  cases left : (stepEntry e s.now).1 with
  | none => rwa [fire_ended left]
  | some next =>
    by_cases due : next.due = s.now
    · rw [fire_again left due]
      have twice := once.told (by rw [member_told, member_toldLate, member]) s next
      exact (twice.withSched _).reinsert _
    · rw [fire_placed left due]
      exact once

theorem fireOwed : s.fireOwed.OutputsOk := by
  unfold State.fireOwed
  split
  · exact ok
  split
  · rename_i c _ member
    have begun : (s.withoutDue c).OutputsOk ∧ (s.withoutDue c).member.state = .member := ⟨ok, member⟩
    rw [fireDue_eq]
    refine (List.foldlRecOn (motive := fun u : State => u.OutputsOk ∧ u.member.state = .member) _ _ begun fun u before e _ => ?_).1
    obtain ⟨before, member⟩ := before
    exact ⟨before.fire member e none, by rw [member_fire, member]⟩
  · exact ok

/-- An insertion is made in MEMBER alone (R96). -/
theorem insert (e : Entry) : (s.insert e).1.OutputsOk := by
  by_cases member : s.member.state = .member
  · rcases s.insert_state e with same | ⟨q, byDue⟩
    · rw [same]
      exact ok
    · rw [byDue]
      rcases (s.withSched q).insertByDue_state e with placed | ⟨l, fired⟩ | ⟨d, dropped⟩
      · rw [placed]
        exact ok
      · rw [fired]
        exact (ok.withSched q).fire member e l
      · rw [dropped]
        exact ok
  · rw [State.insert, if_pos member]
    exact ok

theorem applyClaim (origin : Station) (source : Source) (p : Payload) : (s.applyClaim origin source p).1.OutputsOk := by
  cases p with
  | action f => exact ok.insert _
  | amend selector serial new => exact show ((s.amendEntry _ _).1).OutputsOk from ok.of_frame (by simp)
  | cancel selector serial => exact show ((s.cancelEntry _).1).OutputsOk from ok.of_frame (by simp)
  | beacon | event | refuse => exact ok

theorem endPulse (l : Fin 8) : (s.endPulse l).OutputsOk := by
  unfold State.endPulse
  split
  · rename_i held
    split
    · exact ok.setLine (fun outside => by rw [held] at outside; cases outside) fun _ => rfl
    · exact ok
  · exact ok

/-! ### What is handed over and handed on -/

theorem insertNext : s.insertNext.OutputsOk := by
  unfold State.insertNext State.insertReflex
  split
  · exact ok
  · rename_i h rest _
    have inserted := (ok.withOwed { s.owed with insertions := rest }).insert (h.action.entry s.number .reflex)
    dsimp only
    split
    · exact inserted.of_frame (by simp)
    · exact inserted.of_frame (by simp)

theorem insertHandedOver : s.insertHandedOver.OutputsOk := List.foldlRecOn _ _ ok fun _ ok _ _ => ok.insertNext

theorem takeHandedOn : s.takeHandedOn.OutputsOk := by
  unfold State.takeHandedOn
  split
  · exact ok
  · rename_i sender p rest _
    have claimed := (ok.withOwed { s.owed with exchange := rest }).applyClaim sender .remote p
    split <;> rename_i answer <;> rw [answer] at claimed <;> exact claimed
  · exact ok.of_frame (by simp)

theorem takeAllHandedOn : s.takeAllHandedOn.OutputsOk := List.foldlRecOn _ _ ok fun _ ok _ _ => ok.takeHandedOn

theorem takeRemote (atOnce : Bool) (sender : Station) (p : Payload) : (s.takeRemote atOnce sender p).OutputsOk := by
  have handed := ok.withOwed { s.owed with exchange := s.owed.exchange ++ [.claim sender p] }
  unfold State.takeRemote
  split
  · dsimp only
    split
    · exact handed.takeAllHandedOn
    · exact handed
  · exact ok

/-! ### Edges of the inputs and their reflexes -/

theorem reflexLocal (atOnce : Bool) (x : ReflexEntry) (stamp : Time) : (s.reflexLocal atOnce x stamp).OutputsOk := by
  have handed : (s.takeSerial.withOwed { s.owed with
      insertions := s.owed.insertions ++ [{ action := s.reflexAction x stamp, behind := [] }] }).OutputsOk := ok
  unfold State.reflexLocal
  dsimp only
  split
  · exact handed.insertHandedOver
  · exact handed

theorem reflex (earlier : Nat) (atOnce : Bool) (n : Fin 16) (input : Fin 8) (edge : EdgeDir) (stamp : Time) :
    (s.reflex earlier atOnce n input edge stamp).OutputsOk := by
  unfold State.reflex
  dsimp only
  split
  · split
    · exact ok.of_frame (by simp)
    · exact ok.of_frame (by simp)
    · exact ok.reflexLocal _ _ _
  · exact ok

theorem runReflexes (atOnce : Bool) (input : Fin 8) (edge : EdgeDir) (stamp : Time) :
    (s.runReflexes atOnce input edge stamp).OutputsOk := by
  unfold State.runReflexes
  generalize List.finRange 16 = entries
  exact List.foldlRecOn entries _ ok fun _ ok n _ => reflex ok _ atOnce n input edge stamp

theorem takeEdge (atOnce : Bool) (input : Fin 8) (edge : EdgeDir) (first : SampleRecord) :
    (s.takeEdge atOnce input edge first).OutputsOk := by
  have entered (body : LogBody) : (s.enterLog body).1.OutputsOk := ok.of_frame (by simp)
  unfold State.takeEdge
  dsimp only
  split
  · split
    · exact (entered _).runReflexes _ _ _ _
    · exact entered _
  · exact ok

theorem qualify (atOnce : Bool) (input : Fin 8) : (s.qualify atOnce input).OutputsOk := by
  unfold State.qualify
  split
  · exact ok
  dsimp only
  split
  · exact ok
  split
  · exact (ok.withCap _).takeEdge _ _ _ _
  · exact ok

/-! ### Founding, boundaries and departures -/

theorem foundOwed : s.foundOwed.OutputsOk := by
  unfold State.foundOwed
  split
  · exact ok.of_state rfl rfl fun other => absurd rfl other
  · exact ok

/-- A teardown into LISTEN completes the pulses (R130). -/
theorem teardownToListen (cause : Cause) : (s.teardownToListen cause).OutputsOk := by
  obtain ⟨_, _, _, _, _, _, out, _⟩ := s.teardownToListen_blocks cause
  exact ok.of_mapLines out (s.cfg_teardownToListen cause) (fun i => by rw [OutLine.resynced_eq])
    fun _ i line => line.hasEdge_resynced _ _

/-- Entry into STOPPED drives every enabled line to its default level (R131). -/
theorem enterStopped (cause : Cause) : (s.enterStopped cause).OutputsOk := by
  by_cases active : s.active = true
  · obtain ⟨_, _, out, _⟩ := enterStopped_stops (s := s) cause active
    exact ok.of_mapLines out (s.cfg_enterStopped cause) (fun _ => rfl) fun _ i line => line.hasEdge_defaulted _
  · rw [enterStopped_of_inactive cause active]
    exact ok

theorem takeVerdict (v : Verdict) : (s.takeVerdict v).OutputsOk := by
  rcases v.effect_cases s.member.state with ⟨rfl, state⟩ | ⟨rfl, state⟩ | ⟨rfl, state⟩ | void
  · rw [takeVerdict_join state]
    exact ok.of_state rfl rfl fun other => absurd rfl other
  · rw [takeVerdict_joinFailure state]
    exact ok.teardownToListen _
  · rw [takeVerdict_split state]
    exact ok.teardownToListen _
  · rwa [takeVerdict_void void]

theorem takeHandedVerdict : s.takeHandedVerdict.OutputsOk := by
  unfold State.takeHandedVerdict
  split
  · exact ok
  · rename_i h _
    have dropped : (s.dropVerdict h.turn).OutputsOk := ok
    exact (dropped.takeVerdict h.verdict).of_frame (by simp)

theorem evaluationOwed (turn : LineTurn) : (s.evaluationOwed turn).OutputsOk := by
  unfold State.evaluationOwed
  split
  · exact ok.of_frame (by simp)
  · exact ok

theorem boundaryOwed (turn : LineTurn) : (s.boundaryOwed turn).OutputsOk := by
  have evaluated : (s.evaluation turn).OutputsOk := ok.of_frame (by simp)
  unfold State.boundaryOwed State.boundary
  split
  · exact evaluated.takeHandedVerdict
  · exact ok

end

end State.OutputsOk

end Sys2Proof.Machine
end

section
/-! PROOFS. What R120 and R124 say of the output lines, under reception, the own frame and the commands. -/

namespace Sys2Proof.Machine

namespace State.OutputsOk

section

variable {s : State} (ok : s.OutputsOk)

include ok

/-! ### Reception -/

/-- Adoption leads from LISTEN, where no edge is, to JOINING (R48, R81). -/
theorem takeBeacon (sender : Station) (time : Time) (body : BeaconBody) (sof : Option SofRecord) :
    (s.takeBeacon sender time body sof).OutputsOk := by
  have recorded : (s.recordBeacon sender time body sof).OutputsOk := by
    unfold State.recordBeacon
    split <;> exact ok
  unfold State.takeBeacon
  split
  · rename_i listening
    split
    · exact ok.of_state rfl rfl fun _ => by simp [listening]
    · exact ok
  · exact recorded
  · exact recorded
  all_goals exact ok

/-- Of a valid frame a claim may fire, and a duplicate number stops the station (R15, R16, R136). -/
theorem handOn (atOnce : Bool) (f : Frame) (sof : Option SofRecord) : (s.handOn atOnce f sof).OutputsOk := by
  unfold State.handOn
  split
  · exact ok.enterStopped .duplicate
  · cases f.payload with
    | beacon time body => exact ok.takeBeacon _ _ _ _
    | action | amend | cancel => exact ok.takeRemote _ _ _
    | event =>
      unfold State.takeEvent
      dsimp only
      split
      · exact ok.of_frame (by simp)
      · exact ok
    | refuse =>
      unfold State.takeRefuse
      dsimp only
      split <;> exact ok

theorem receive (atOnce : Bool) (f : PartialFrame) (samples : List Bool) : (s.receive atOnce f samples).OutputsOk := by
  unfold State.receive
  dsimp only
  cases takeSamples f samples with
  | more | truncated | error => exact ok
  | valid frame => exact ((ok.withLine _).withLine _).handOn _ _ _

theorem complete (atOnce : Bool) (samples : List Bool) : (s.complete atOnce samples).OutputsOk := by
  unfold State.complete
  split
  · exact ok.receive _ _ _
  · exact ok

/-! ### The own frame -/

theorem selfDeliver (p : Payload) : (s.selfDeliver p).OutputsOk := by
  have claimed := ok.applyClaim s.number .selfDelivery p
  unfold State.selfDeliver
  split
  · split <;> rename_i answer <;> rw [answer] at claimed <;> exact claimed
  · exact ok

theorem transmissionSucceeded : s.transmissionSucceeded.OutputsOk := by
  have removed : s.removeTransmitted.OutputsOk := ok
  unfold State.transmissionSucceeded
  split
  · exact ok
  · dsimp only
    split
    · exact removed
    · exact removed.selfDeliver _

theorem transmissionFailed : s.transmissionFailed.OutputsOk := by
  unfold State.transmissionFailed
  repeat' split
  all_goals exact ok

theorem afterMismatch (bit : Nat) : (s.afterMismatch bit).OutputsOk := by
  unfold State.afterMismatch
  dsimp only
  cases s.line.afterSend with
  | off | seek => exact ok
  | inStep => exact (ok.withLine _).receive _ _ _

theorem stick : s.stick.OutputsOk := by
  unfold State.stick
  dsimp only
  split <;> exact ok

/-! ### The commands -/

theorem answer (c : Command) (code : RespCode) (data : List Byte) : (s.answer c code data).OutputsOk := ok

theorem guarded {own : State → State} (c : Command) (kept : c.allowedIn s.member.state = true → (own s).OutputsOk) :
    (s.guarded c own).OutputsOk := by
  unfold State.guarded
  split
  · rename_i allowed
    exact kept allowed
  · exact ok

theorem sendCommand (c : Command) (p : Payload) : (s.sendCommand c p).OutputsOk :=
  show ((s.enqueue (.fresh p true none)).1).OutputsOk from ok.of_frame (by simp)

/-- CONFIGURE leads to READY from where no edge is (R76). -/
theorem runConfigure (block : List Byte) : (s.runConfigure block).OutputsOk := by
  refine ok.guarded _ fun allowed => ?_
  split
  · exact ok
  · exact ok.of_state rfl rfl fun _ member => by simp [Command.allowedIn, member] at allowed

omit ok in
/-- START in READY drives the lines of its mask and no other, without an edge (R129). -/
theorem startFromReady (s : State) (c : ConfigBlock) : (s.startFromReady c).OutputsOk := by
  intro i
  have line : (s.startFromReady c).out.lines[i]
      = if c.enableMask.getLsbD i then .driven (c.defaults.getLsbD i) none else .released := Vector.getElem_ofFn i.isLt
  have enabled : (s.startFromReady c).enabled i = c.enableMask.getLsbD i := rfl
  rw [line, enabled]
  cases c.enableMask.getLsbD i with
  | false => exact ⟨fun _ => rfl, fun _ => rfl⟩
  | true => exact ⟨nofun, fun _ => rfl⟩

/-- START in STOPPED leaves the lines (R129). -/
theorem runStart : s.runStart.OutputsOk := by
  refine ok.guarded _ fun allowed => answer ?_ _ _ _
  split
  · exact startFromReady s _
  · exact ok.of_state rfl rfl fun _ member => by simp [Command.allowedIn, member] at allowed

theorem runPost (scope : Byte) (f : ActionFields) : (s.runPost scope f).OutputsOk := by
  refine ok.guarded _ fun _ => ?_
  split
  · exact ok
  split
  · exact ok
  split
  · exact ok.insert _
  · exact ok.sendCommand _ _

theorem runAmend (scope : Byte) (selector serial : Half) (new : Repeat) : (s.runAmend scope selector serial new).OutputsOk := by
  refine ok.guarded _ fun _ => ?_
  split
  · exact ok
  split
  · exact show ((s.amendEntry _ _).1).OutputsOk from ok.of_frame (by simp)
  · exact ok.sendCommand _ _

theorem runCancel (scope : Byte) (selector serial : Half) : (s.runCancel scope selector serial).OutputsOk := by
  refine ok.guarded _ fun _ => ?_
  split
  · exact ok
  split
  · exact show ((s.cancelEntry _).1).OutputsOk from ok.of_frame (by simp)
  · exact ok.sendCommand _ _

/-- DRIVE acts on an enabled line, and leaves no edge (R127). -/
theorem runDrive (line kind : Byte) : (s.runDrive line kind).OutputsOk := by
  refine ok.guarded _ fun _ => ?_
  split
  · exact ok
  split
  · exact ok
  · refine answer (ok.setLine (fun outside => by rw [outside]; rfl) fun _ => OutLine.hasEdge_fired _ _ ?_ _ _ _ _) _ _ _
    split
    · exact nofun
    split <;> exact nofun

theorem run (c : Command) : (s.run c).OutputsOk := by
  cases c with
  | nop | status | readPeers => exact ok.guarded _ fun _ => ok
  | snapshot => exact ok.guarded _ fun _ => show ((s.enterLog _).1).OutputsOk from ok.of_frame (by simp)
  | stop => exact ok.guarded _ fun _ => ok.enterStopped .stop
  | configure block => exact ok.runConfigure block
  | start => exact ok.runStart
  | post scope fields => exact ok.runPost scope fields
  | amend scope selector serial new => exact ok.runAmend scope selector serial new
  | cancel scope selector serial => exact ok.runCancel scope selector serial
  | drive line kind => exact ok.runDrive line kind
  | find origin serial =>
    refine ok.guarded _ fun _ => ?_
    split
    · exact ok
    dsimp only
    split <;> exact ok
  | readLog count | readReports count =>
    refine ok.guarded _ fun _ => ?_
    split <;> exact ok

end

end State.OutputsOk

end Sys2Proof.Machine
end

section
/-! PROOFS. What R120 and R124 say of the output lines, at a tick and in every row, and so in every step. -/

namespace Sys2Proof.Machine

namespace State.OutputsOk

section

variable {s : State} (ok : s.OutputsOk)

include ok

/-! ### The tick -/

theorem runDue : s.runDue.OutputsOk := by
  unfold State.runDue
  split
  · split
    · exact ok.run _
    · exact ok
  all_goals exact ok

/-- What is left of the last tick is taken by operations that keep the lines so (log 1). -/
theorem settle : s.settle.OutputsOk := by
  have handedOver := ok.insertHandedOver.takeAllHandedOn.takeHandedVerdict
  unfold State.settle
  generalize List.finRange 8 = each
  have pulses := List.foldlRecOn each _ handedOver fun _ ok l _ => endPulse ok l
  have edges := List.foldlRecOn each _ (pulses.fireOwed.boundaryOwed .first) fun _ ok i _ => qualify ok true i
  exact edges.foundOwed.runDue

/-- A tick marks edges, and makes none (R125). -/
theorem tickNow (levels : BitVec 8) : (s.tickNow levels).OutputsOk := by
  obtain ⟨state, _, _, _, _, _, cfg⟩ := s.tickNow_frame levels
  by_cases member : s.member.state = .member
  · cases timed : s.clock.cluster with
    | none => exact ok.of_frame ⟨by simp [s.tickNow_of_untimed levels timed], cfg, by rw [state]⟩
    | some c =>
      exact ok.of_mapLines (s.out_tickNow_of_member levels timed member) cfg (fun _ => rfl)
        fun other => absurd (state ▸ member) other
  · exact ok.of_frame ⟨s.out_tickNow_of_not_member levels member, cfg, by rw [state]⟩

/-! ### The rows -/

/-- A row of a command executes nothing, or a command (R172). -/
theorem row (c : Command) : LeadsTo OutputsOk (exec c.row s) := by
  rcases exec_row_cases s c with same | ⟨d, runs⟩
  · rw [same]
    exact .next ok
  · rw [runs]
    exact .next (ok.run d)

theorem idleSlot : LeadsTo OutputsOk (execIdleSlot s) := by
  have started (place : Nat) : (s.beginSlot.startFrame place).OutputsOk := by
    unfold State.startFrame
    split <;> exact ok
  unfold execIdleSlot
  split
  · dsimp only
    split
    · exact .next ok
    split
    · exact .next (started _)
    · exact .next ok
  · exact .next ok

theorem transmissionSuccess : LeadsTo OutputsOk (execTransmissionSuccess s) := by
  unfold execTransmissionSuccess endSend
  split
  · exact .next (ok.withLine _).transmissionSucceeded
  · exact .next ok

theorem readbackMismatch (bit : Nat) : LeadsTo OutputsOk (execReadbackMismatch bit s) := by
  unfold execReadbackMismatch
  split
  · exact .next (ok.transmissionFailed.afterMismatch bit)
  · exact .next ok

/-- A line that sticks in SEND fails the attempt first (log 11). -/
theorem lineStuck : LeadsTo OutputsOk (execLineStuck s) := by
  unfold execLineStuck
  cases s.line.receiver with
  | off | stuck => exact .next ok
  | seek | wait | receive => exact .next ok.stick
  | send =>
    cases s.line.afterSend with
    | off => exact .next ok.transmissionFailed
    | inStep | seek => exact .next ok.transmissionFailed.stick

/-- Every row keeps the lines so. A row of a command runs the command that the port holds, so that the parameters named here are of no
account. -/
theorem everyRow (i : Instr) : LeadsTo OutputsOk (exec i s) := by
  cases i with
  | hardwareReset => exact .next (outputsOk_reset.of_state rfl rfl id)
  | tick levels => exact .next (ok.settle.tickNow levels)
  | roundBoundary event =>
    cases event with
    | whole turn => exact .next (ok.boundaryOwed turn)
    | evaluation turn => exact .next (ok.evaluationOwed turn)
    | verdict => exact .next ok.takeHandedVerdict
  | listenWindowExpiry => exact .next ok.foundOwed
  | firing => exact .next ok.fireOwed
  | pulseEnd l => exact .next (ok.endPulse l)
  | edgeQualified event =>
    cases event with
    | whole input => exact .next (ok.qualify true input)
    | handOver input => exact .next (ok.qualify false input)
    | insertion => exact .next ok.insertNext
  | frameCompletion event =>
    cases event with
    | whole samples => exact .next (ok.complete true samples)
    | handOver samples => exact .next (ok.complete false samples)
    | next => exact .next ok.takeHandedOn
  | idleSlot => exact ok.idleSlot
  | transmissionSuccess => exact ok.transmissionSuccess
  | readbackMismatch bit => exact ok.readbackMismatch bit
  | lineStuck => exact ok.lineStuck
  | lineIdle =>
    show LeadsTo OutputsOk (execLineIdle s)
    unfold execLineIdle
    split <;> exact .next ok
  | startOfFrame =>
    show LeadsTo OutputsOk (execStartOfFrame s)
    unfold execStartOfFrame
    split <;> exact .next ok
  | frameTruncated =>
    show LeadsTo OutputsOk (execFrameTruncated s)
    unfold execFrameTruncated
    repeat' split
    all_goals exact .next ok
  | rejectedStartEdge =>
    show LeadsTo OutputsOk (execRejectedStartEdge s)
    unfold execRejectedStartEdge
    repeat' split
    all_goals exact .next ok
  | stuckRunEnd =>
    show LeadsTo OutputsOk (execStuckRunEnd s)
    unfold execStuckRunEnd
    split <;> exact .next ok
  | lineReleased =>
    show LeadsTo OutputsOk (execLineReleased s)
    unfold execLineReleased
    split <;> exact .next ok
  | transactionBegin =>
    show LeadsTo OutputsOk (execTransactionBegin s)
    unfold execTransactionBegin beginTransaction
    repeat' split
    all_goals exact .next ok
  | transactionEnd bits cut =>
    show LeadsTo OutputsOk (execTransactionEnd bits cut s)
    unfold execTransactionEnd endTransaction
    repeat' split
    all_goals exact .next ok
  | nop => exact ok.row .nop
  | status => exact ok.row .status
  | configure => exact ok.row (.configure [])
  | start => exact ok.row .start
  | stop => exact ok.row .stop
  | post => exact ok.row (.post 0 (actionFieldsAt [] 0))
  | amend => exact ok.row (.amend 0 0 0 ⟨0, 0⟩)
  | cancel => exact ok.row (.cancel 0 0 0)
  | find => exact ok.row (.find 0 0)
  | readLog => exact ok.row (.readLog 0)
  | readReports => exact ok.row (.readReports 0)
  | readPeers => exact ok.row .readPeers
  | snapshot => exact ok.row .snapshot
  | drive => exact ok.row (.drive 0 0)

end

end State.OutputsOk

/-- Settles O55: what every row keeps, by the operations that it is made of. -/
theorem outputsKept : Obligations.OutputsKept := step_keeps (fun _ _ ok => ok) fun i _ ok => ok.everyRow i

end Sys2Proof.Machine
end

section
/-! PROOFS. DRIVE and its readout (R127, R128). -/

namespace Sys2Proof.Machine

/-! ### The readout -/

/-- The first byte of a line record: driven, its level, and whether an edge is pending (R186). -/
theorem lineFlags_eq (high : Bool) :
    flagBit 0 true ||| flagBit 1 high = .ofNat 8 (1 + 2 * (if high then 1 else 0))
    ∧ flagBit 0 true ||| flagBit 1 high ||| flagBit 2 true = .ofNat 8 (5 + 2 * (if high then 1 else 0)) := by
  revert high
  decide

/-- The eight bytes of a line record (R186). -/
theorem OutLine.bytes_eq (line : OutLine) : line.bytes =
    match line with
    | .released => [0, 0, 0, 0, 0, 0, 0, 0]
    | .driven high none => [.ofNat 8 (1 + 2 * (if high then 1 else 0)), 0, 0, 0, 0, 0, 0, 0]
    | .driven high (some e) =>
      .ofNat 8 (5 + 2 * (if high then 1 else 0)) :: timeBytes e.endTime ++ .ofNat 8 e.id.origin.val :: halfBytes e.id.serial := by
  rcases line with _ | ⟨high, _ | e⟩
  · rfl
  · rw [bytes, (lineFlags_eq high).1]
    rfl
  · rw [bytes, (lineFlags_eq high).2]
    rfl

/-- The readout shows the lines in the order of their numbers (R128). -/
theorem driveData_eq (lines : Vector OutLine 8) : driveData lines = (List.finRange 8).flatMap fun m => (lines[m]).bytes := by
  have listed : lines.toList = (List.finRange 8).map fun m => lines[m] := List.ext_getElem (by simp) (by simp)
  rw [driveData, listed, List.flatMap_map]

/-! ### The command -/

/-- The kind of firing that a DRIVE is applied as (R127). -/
def driveKind (kind : Byte) : ActionKind := if kind = 0 then .set else if kind = 1 then .clear else .toggle

/-- The state with a line driven by DRIVE. -/
def State.drivenBy (s : State) (l : Fin 8) (kind : Byte) : State :=
  s.applyFiring l (driveKind kind) 0 { origin := 0, serial := 0 } 0

section

variable {s : State} {line kind : Byte} (allowed : s.active = true ∨ s.member.state = .stopped)

include allowed

/-- DRIVE judges its parameters, then the line, and then acts (R127). -/
theorem State.runDrive_eq : s.runDrive line kind =
    if 2 < kind.toNat ∨ 7 < line.toNat then s.answer (.drive line kind) .badParam []
    else if s.enabled (eighthIn line) = false then s.answer (.drive line kind) .badLine []
    else (s.drivenBy (eighthIn line) kind).answer (.drive line kind) .ok
      (driveData (s.drivenBy (eighthIn line) kind).out.lines) := by
  have taken : Command.allowedIn (.drive line kind) s.member.state = true := by
    rcases allowed with active | stopped
    · rcases active_cases active with h | ⟨_, h | h⟩ <;> simp [Command.allowedIn, h]
    · simp [Command.allowedIn, stopped]
  rw [runDrive, guarded_of_allowed _ taken]
  simp only [Bool.or_eq_true, decide_eq_true_eq, Bool.not_eq_true']
  rfl

end

/-- Settles O47: the outcomes by `State.runDrive_eq`, the line by the firing that the kind is applied as, the readout by the layout of a
line record. -/
theorem drive : Obligations.Drive := by
  intro s n line kind least most work allowed answered byte flag shown
  have took : exec .drive s = .next (s.runDrive line kind) := s.exec_row (.drive line kind) n work least most
  have records (line : OutLine) : line.bytes = shown line := by
    rw [line.bytes_eq]
    rcases line with _ | ⟨high, _ | e⟩
    · rfl
    · rfl
    · dsimp only
      rw [timeBytes_eq, halfBytes_eq]
      rfl
  rw [took, State.runDrive_eq allowed]
  refine ⟨fun bad => ?_, fun l named known => ⟨fun disabled => ?_, fun enabled high edge held => ?_⟩⟩
  · rw [if_pos bad]
    rfl
  all_goals
    have good : ¬ (2 < kind.toNat ∨ 7 < line.toNat) := by omega
    have here : eighthIn line = l := Fin.ext (by rw [eighthIn_val]; omega)
    rw [if_neg good, here]
  · rw [if_pos disabled]
    rfl
  · rw [if_neg (by simp [enabled])]
    have driven (m : Fin 8) : (s.drivenBy l kind).out.lines[m]
        = if m = l then (OutLine.driven high edge).fired (s.defaultHigh l) s.now (driveKind kind) 0 { origin := 0, serial := 0 } 0
          else s.out.lines[m] := by
      rw [← held]
      exact getElem_set_line _ _ _ _
    refine ⟨_, rfl, ?_, fun m other => ?_, ?_, ?_, ?_⟩
    · rw [driveData_eq, List.flatMap_congr fun m _ => records _]
      rfl
    · exact (driven m).trans (if_neg other)
    all_goals
      rintro rfl
      exact (driven l).trans (if_pos rfl)

end Sys2Proof.Machine
end

section
/-! PROOFS. The arrival of a record at the capture log (R155, R156), and the frames of other stations that claim nothing: a valid EVENT
(R158) and a valid REFUSE (R140). -/

namespace Sys2Proof.Machine

/-! ### The log -/

/-- A loss sets the episode flag, and the first of an episode queues LOG_OVERFLOW (R156). -/
theorem State.logLoss_eq (s : State) (discarded : Option Half) : s.logLoss discarded =
    (s.withCap { s.cap with episode := true }).withPort { s.port with
      reports := if s.cap.episode then s.port.reports
        else arrive s.port.reports
          { detail := .logOverflow s.config.logPolicy discarded, stamp := s.stampTime, unsynced := s.unsynced }
      attn := (s.logLoss discarded).port.attn } := by
  unfold logLoss
  cases h : s.cap.episode with
  | false => rfl
  | true =>
    have same : { s.cap with episode := true } = s.cap := by rw [← h]
    rw [same]
    rfl

/-- A record that arrives is entered, discarded under STOP, or entered for the oldest under WRAP (R155, R156). -/
theorem State.enterLog_logs (u : State) (body : LogBody) : u.Logs (u.enterLog body).1 body := by
  refine ⟨fun room => ?room, fun full stop => ?stop, fun oldest rest log full wrap => ?wrap⟩
  case room =>
    rw [enterLog_room body room]
    rfl
  case stop =>
    rw [(enterLog_full body full).1 stop, ← stop]
    exact u.logLoss_eq none
  case wrap =>
    rw [(enterLog_full body full).2 wrap, ← wrap, log]
    exact (u.appendLog rest body).logLoss_eq (some oldest.sequence)

/-! ### A valid frame -/

section

variable {s : State} {f : PartialFrame} {event : FrameEvent} {samples : List Bool}

/-- A valid frame is handed on with the receiver in WAIT (R7, R15). -/
theorem State.receive_valid {valid : Frame} (atOnce : Bool) (completes : takeSamples f samples = .valid valid) :
    s.receive atOnce f samples = (s.afterValid samples).handOn atOnce valid s.line.sof := by
  unfold receive
  rw [completes]
  rfl

variable (of : State.samplesOf event samples) (receives : s.line.receiver = .receive) (frame : s.line.frame = some f)
  {sender : Station} (other : sender ≠ s.number)

include of receives frame other

theorem exec_frameCompletion_event {selector : Half} {channel : Fin 8} {edge : EdgeDir} {stamp : Time} {sequence : Half}
    (valid : takeSamples f samples = .valid { sender := sender, payload := .event selector channel edge stamp sequence }) :
    exec (.frameCompletion event) s
      = .next ((s.afterValid samples).takeEvent sender selector channel edge stamp sequence) := by
  obtain ⟨atOnce, took⟩ := exec_frameCompletion_receive of receives frame
  rw [took, State.receive_valid atOnce valid]
  exact congrArg _ (if_neg other)

theorem exec_frameCompletion_refuse {origin : Station} {serial : Half} {reason : Byte}
    (valid : takeSamples f samples = .valid { sender := sender, payload := .refuse origin serial reason }) :
    exec (.frameCompletion event) s = .next ((s.afterValid samples).takeRefuse sender origin serial reason) := by
  obtain ⟨atOnce, took⟩ := exec_frameCompletion_receive of receives frame
  rw [took, State.receive_valid atOnce valid]
  exact congrArg _ (if_neg other)

end

/-! ### EVENT and REFUSE -/

section

variable {s : State} {sender : Station}

section

variable {selector : Half} {channel : Fin 8} {edge : EdgeDir} {stamp : Time} {sequence : Half}

theorem State.takeEvent_passedOver (passed : s.member.state ≠ .member ∨ s.passes selector = false) :
    s.takeEvent sender selector channel edge stamp sequence = s := by
  refine if_neg fun h => ?_
  obtain ⟨member, passes⟩ := Bool.and_eq_true_iff.1 h
  rcases passed with notMember | out
  · exact notMember (of_decide_eq_true member)
  · exact Bool.false_ne_true (out.symm.trans passes)

theorem State.takeEvent_admitted (member : s.member.state = .member) (passes : s.passes selector = true) :
    s.takeEvent sender selector channel edge stamp sequence = (s.enterLog (remoteRecord sender channel edge stamp sequence)).1 :=
  if_pos (Bool.and_eq_true_iff.2 ⟨decide_eq_true member, passes⟩)

end

section

variable {origin : Station} {serial : Half} {reason : Byte}

theorem State.takeRefuse_discarded (passed : s.member.state ≠ .member ∨ origin ≠ s.number) :
    s.takeRefuse sender origin serial reason = s := by
  refine if_neg fun h => ?_
  obtain ⟨member, own⟩ := Bool.and_eq_true_iff.1 h
  rcases passed with notMember | foreign
  · exact notMember (of_decide_eq_true member)
  · exact foreign (of_decide_eq_true own)

theorem State.takeRefuse_own (member : s.member.state = .member) (own : origin = s.number) :
    s.takeRefuse sender origin serial reason = s.report (.refused { origin := s.number, serial := serial } sender reason) :=
  if_pos (Bool.and_eq_true_iff.2 ⟨decide_eq_true member, decide_eq_true own⟩)

end

end

/-- Settles O31: the frame is valid in WAIT; an EVENT that passes makes a record by `State.enterLog_logs`, a REFUSE of this station's
action a report. -/
theorem remoteEventAndRefuse : Obligations.RemoteEventAndRefuse := by
  refine ⟨fun s f event samples sender of receives frame member other => ⟨?event, ?refuse⟩, ?notMember⟩
  case event =>
    intro selector channel edge stamp sequence valid
    refine ⟨_, exec_frameCompletion_event of receives frame other valid, ?_⟩
    by_cases passes : s.passes selector = true
    · rw [State.takeEvent_admitted (s := s.afterValid samples) member passes, State.line_enterLog]
      exact ⟨rfl, fun out => absurd passes (by simp [out]), fun _ => (s.afterValid samples).enterLog_logs _⟩
    · rw [State.takeEvent_passedOver (s := s.afterValid samples) (.inr (Bool.eq_false_iff.2 passes))]
      exact ⟨rfl, fun _ => rfl, fun admitted => absurd admitted passes⟩
  case refuse =>
    intro origin serial reason valid
    refine ⟨_, exec_frameCompletion_refuse of receives frame other valid, ?_⟩
    by_cases own : origin = s.number
    · rw [State.takeRefuse_own (s := s.afterValid samples) member own]
      exact ⟨rfl, rfl, fun foreign => absurd own foreign, fun _ => rfl⟩
    · rw [State.takeRefuse_discarded (s := s.afterValid samples) (.inr own)]
      exact ⟨rfl, rfl, fun _ => rfl, fun named => absurd named own⟩
  case notMember =>
    intro s f event samples sender p of receives frame notMember other valid kind
    cases p with
    | event selector channel edge stamp sequence =>
      refine ⟨_, exec_frameCompletion_event of receives frame other valid, ?_⟩
      rw [State.takeEvent_passedOver (s := s.afterValid samples) (.inl notMember)]
      exact ⟨rfl, rfl⟩
    | refuse origin serial reason =>
      refine ⟨_, exec_frameCompletion_refuse of receives frame other valid, ?_⟩
      rw [State.takeRefuse_discarded (s := s.afterValid samples) (.inl notMember)]
      exact ⟨rfl, rfl⟩
    | beacon _ _ | action _ | amend _ _ _ | cancel _ _ => exact absurd kind (by simp [Payload.kind])

end Sys2Proof.Machine
end

section
/-! PROOFS. The effects of a reflex (R146, R163–R166), the insertions that LOCAL entries hand over (R160, R165), and the row of a selected
edge (R153, R156, R162). -/

namespace Sys2Proof.Machine

/-! ### PUBLISH and POST -/

section

variable {s : State} (earlier : Nat) (n : Fin 16) (x : ReflexEntry) (stamp : Time) (member : s.member.state = .member)

include member

/-- A request in MEMBER is refused by a full queue alone (R19, R20). -/
theorem State.enqueue_of_member (r : TxRecord) : s.enqueue r =
    if s.cont.queue.length < 8 then (s.withCont { s.cont with queue := s.cont.queue ++ [r] }, .appended) else (s, .full) := by
  rcases s.enqueue_cases r with ⟨refused, _⟩ | ⟨_, room, h⟩ | ⟨_, full, h⟩
  · rw [(takesKind_iff _ _).2 (.inl member)] at refused
    cases refused
  · rw [h, if_pos room]
  · rw [h, if_neg (by omega)]

/-- A PUBLISH queues an EVENT with the next event sequence (R163). -/
theorem State.publish_of_room (room : s.cont.queue.length < 8) : s.publish earlier n x stamp =
    (s.withCont { s.cont with queue := s.cont.queue ++
      [.fresh (.event x.selector x.input x.edge stamp s.cap.eventCounter) false (some n)] }).withCap
        { s.cap with eventCounter := s.cap.eventCounter + 1 } := by
  rw [publish, enqueue_of_member member, if_pos room]
  rfl

theorem State.publish_of_full (full : 8 ≤ s.cont.queue.length) :
    s.publish earlier n x stamp = s.reportNotSent earlier .event n := by
  rw [publish, enqueue_of_member member, if_neg (by omega)]

/-- A POST queues an ACTION for self-delivery too, and takes the serial (R146, R164). -/
theorem State.reflexPost_of_room (room : s.cont.queue.length < 8) : s.reflexPost earlier n x stamp =
    s.takeSerial.withCont { s.cont with queue := s.cont.queue ++ [.fresh (.action (s.reflexAction x stamp)) true (some n)] } := by
  rw [reflexPost, enqueue_of_member member, if_pos room]
  rfl

theorem State.reflexPost_of_full (full : 8 ≤ s.cont.queue.length) :
    s.reflexPost earlier n x stamp = s.reportNotSent earlier .action n := by
  rw [reflexPost, enqueue_of_member member, if_neg (by omega)]

end

/-! ### NOT_SENT -/

section

variable {s : State} {earlier : Nat} (kind : FrameKind) (n : Fin 16)

theorem State.reportNotSent_of_none (noneWaits : s.owed.insertions.length ≤ earlier) :
    s.reportNotSent earlier kind n = s.report (.notSent kind (.reflex n none)) := by
  rcases s.reportNotSent_cases earlier kind n with ⟨_, reported⟩ | ⟨before, h, after, held, _⟩
  · exact reported
  · rw [held, List.length_append, List.length_singleton] at noneWaits
    omega

/-- While the insertion of an earlier entry waits, the report stands behind the last one's own (R166). -/
theorem State.reportNotSent_of_waiting {before : List HandedOver} {h : HandedOver} (held : s.owed.insertions = before ++ [h])
    (after : earlier ≤ before.length) : s.reportNotSent earlier kind n =
      s.withOwed { s.owed with insertions := before ++ [{ h with
        behind := h.behind ++ [{ kind := kind, entry := n, stamp := s.stampTime, unsynced := s.unsynced }] }] } := by
  rcases s.reportNotSent_cases earlier kind n with ⟨none, _⟩ | ⟨before', h', _, held', waits⟩
  · rw [held, List.length_append, List.length_singleton] at none
    omega
  · obtain ⟨rfl, same⟩ := List.append_inj' (held.symm.trans held') rfl
    obtain rfl := List.singleton_inj.1 same
    exact waits

end

/-! ### The insertions of LOCAL entries -/

section

variable {s : State}

/-- Reports queued one after another change the report queue and ATTN alone. -/
theorem State.queueReports_eq (s : State) (l : List Report) : s.queueReports l =
    s.withPort { s.port with reports := l.foldl arrive s.port.reports, attn := (s.queueReports l).port.attn } := by
  induction l generalizing s with
  | nil => rfl
  | cons r rest ih => exact ih (s.queueReport r)

/-- What the refusal of a reflex's insertion makes of a state: this station is both the origin and the refusing one (R165). -/
def State.reflexRefused (action : ActionFields) (v : State) (reason : Byte) : State :=
  v.report (.refused { origin := v.number, serial := action.serial } v.number reason)

theorem State.insertReflex_eq (action : ActionFields) :
    s.insertReflex action = s.insertOr (action.entry s.number .reflex) (reflexRefused action) := by
  have here : s.insertReflex action = s.insertOr (action.entry s.number .reflex) (s.refusedHere action.serial) := by
    rw [insertReflex, insertOr]
    rcases s.insert (action.entry s.number .reflex) with ⟨v, result⟩
    cases result <;> rfl
  refine here.trans (insertOr_congr fun v reason same => ?_)
  have number : v.number = s.number := by rw [number, same, number]
  rw [refusedHere, reflexRefused, number]

/-- In MEMBER it is an insertion with source REFLEX (R96–R103, R165). -/
theorem State.insertReflex_inserts (action : ActionFields) (member : s.member.state = .member) :
    s.Inserts (s.insertReflex action) action s.number .reflex (reflexRefused action) := by
  rw [insertReflex_eq]
  exact s.insertOr_inserts action s.number .reflex _ member

/-- Outside MEMBER it is discarded with no report (R165). -/
theorem State.insertReflex_of_not_member (action : ActionFields) (other : s.member.state ≠ .member) : s.insertReflex action = s := by
  rw [insertReflex_eq, insertOr_of_not_member _ _ other]

/-- The insertion handed over first is taken, and the reports behind it follow its own (R160, R166). -/
theorem State.insertNext_of_first {h : HandedOver} {rest : List HandedOver} (first : s.owed.insertions = h :: rest) :
    s.insertNext = ((s.withOwed { s.owed with insertions := rest }).insertReflex h.action).queueReports (h.behind.map NotSent.report) := by
  rw [insertNext, first]

/-- With none waiting, a LOCAL entry that is taken at once is its insertion with the serial taken (R146, R165). -/
theorem State.reflexLocal_atOnce (x : ReflexEntry) (stamp : Time) (none : s.owed.insertions = []) :
    s.reflexLocal true x stamp = s.takeSerial.insertReflex (s.reflexAction x stamp) := by
  have kept : s.takeSerial.withOwed { s.owed with insertions := [] } = s.takeSerial := by
    rw [← none]
    rfl
  have handed : (s.takeSerial.withOwed { s.owed with insertions := [{ action := s.reflexAction x stamp, behind := [] }] }).owed.insertions
      = [{ action := s.reflexAction x stamp, behind := [] }] := rfl
  rw [reflexLocal, none, List.nil_append, if_pos rfl]
  refine (insertNext_of_first handed).trans ?_
  exact congrArg (insertReflex · (s.reflexAction x stamp)) kept

end

/-! ### The row of a selected edge -/

/-- Two folds are the same where their steps agree on what the steps keep. -/
theorem foldl_congr_of_kept {α β : Type} {P : β → Prop} {f g : β → α → β} (same : ∀ b a, P b → f b a = g b a)
    (kept : ∀ b a, P b → P (f b a)) (l : List α) (b : β) (holds : P b) : l.foldl f b = l.foldl g b :=
  (List.foldl_rel (r := fun c d => c = d ∧ P c) ⟨rfl, holds⟩
    fun a _ c _ ⟨eq, holds⟩ => ⟨eq ▸ same c a holds, kept c a holds⟩).1

section

variable {s : State} {i : Fin 8} {f : Vector InputFilter 8} {ticks stamp : Time}

/-- An edge of an input is qualified: the filter starts anew at the new level (R150). -/
def State.requalified (s : State) (f : Vector InputFilter 8) (i : Fin 8) : State :=
  s.withCap { s.cap with filters := some (f.set i { level := !(f[i]).level, run := 0, first := none }) }

/-- The edge that the run of an input's samples ends in (R150). -/
def InputFilter.edge (x : InputFilter) : EdgeDir := if x.level then .fall else .rise

/-- The log record of that edge in MEMBER, with a cluster stamp (R154). -/
def State.clusterRecord (s : State) (i : Fin 8) (x : InputFilter) (stamp : Time) : LogBody :=
  { station := s.number, channel := .input i, edge := if x.level then .fall else .rise, stamp := stamp, base := .clusterTime,
    synced := true, remote := none }

theorem InputFilter.edge_eq (x : InputFilter) : (if !x.level then EdgeDir.rise else .fall) = x.edge := by
  unfold edge
  cases x.level <;> rfl

theorem State.edgeRecord_eq {s : State} (i : Fin 8) (x : InputFilter) (stamp : Time) (member : s.member.state = .member) :
    s.edgeRecord i x.edge stamp .clusterTime = s.clusterRecord i x stamp := by
  unfold edgeRecord clusterRecord InputFilter.edge
  rw [member]
  cases x.level <;> rfl

/-- A selected edge in MEMBER with a cluster stamp makes its record, and then the reflexes act (R153, R162). -/
theorem State.takeEdge_of_selected {u : State} (atOnce : Bool) (x : InputFilter) (member : u.member.state = .member)
    (valid : u.valid = true) (selected : selects (u.config.inputs[i]).mode x.edge = true) :
    u.takeEdge atOnce i x.edge { ticks := ticks, cluster := some stamp }
      = ((u.enterLog (u.clusterRecord i x stamp)).1).runReflexes atOnce i x.edge stamp := by
  have stamped : u.edgeStamp { ticks := ticks, cluster := some stamp } = (stamp, .clusterTime) := by rw [edgeStamp, valid]
  rw [takeEdge, if_pos selected, stamped]
  dsimp only
  rw [edgeRecord_eq i x stamp member]
  exact if_pos (by simp [member])

/-- An input whose run has reached its filter length is qualified at the new level (R150). -/
theorem State.qualify_of_reached (atOnce : Bool) {sample : SampleRecord} (filters : s.cap.filters = some f)
    (first : (f[i]).first = some sample) (reached : (s.config.inputs[i]).filter ≤ (f[i]).run) :
    s.qualify atOnce i = (s.requalified f i).takeEdge atOnce i (f[i]).edge sample := by
  unfold qualify
  rw [filters]
  dsimp only
  rw [first]
  dsimp only
  rw [if_pos reached, InputFilter.edge_eq]
  rfl

end

/-- Settles O21: the effects by the answers of the transmit queue and of the scheduler, the edge by its record and the table in order,
the configuration being what it was at each entry. -/
theorem reflexes : Obligations.Reflexes := by
  unfold Obligations.Reflexes
  intro taken action refused
  refine ⟨fun s earlier n x stamp member => ?effects, fun s earlier kind n => ?notSent,
    fun s i event f ticks stamp of filters first reached member valid => ?edge, fun s h rest first => ?insertion⟩
  case effects =>
    refine ⟨State.publish_of_room earlier n x stamp member, State.publish_of_full earlier n x stamp member,
      State.reflexPost_of_room earlier n x stamp member, State.reflexPost_of_full earlier n x stamp member, fun none => ?_, rfl, rfl⟩
    rw [State.reflexLocal_atOnce x stamp none]
    exact State.insertReflex_inserts (s := s.takeSerial) (s.reflexAction x stamp) member
  case notSent =>
    exact ⟨State.reportNotSent_of_none kind n, fun before h held after => State.reportNotSent_of_waiting kind n held after⟩
  case edge =>
    intro edge selected
    have took : exec (.edgeQualified event) s = .next (s.qualify (decide (event = .whole i)) i) := by
      rcases of with rfl | rfl
      · rw [exec_edgeQualified_whole, decide_eq_true rfl]
      · rw [exec_edgeQualified_handOver, decide_eq_false nofun]
    generalize decide (event = .whole i) = atOnce at took
    refine ⟨_, _, took, (s.requalified f i).enterLog_logs ((s.requalified f i).clusterRecord i (f[i]) stamp), ?_⟩
    rw [State.qualify_of_reached atOnce filters first reached,
      State.takeEdge_of_selected (u := s.requalified f i) atOnce (f[i]) member valid selected, State.runReflexes]
    generalize hu : ((s.requalified f i).enterLog _).1 = u
    have cfg : u.cfg = s.cfg := by rw [← hu, State.cfg_enterLog]; rfl
    have owed : u.owed = s.owed := by rw [← hu, State.owed_enterLog]; rfl
    rw [owed]
    refine foldl_congr_of_kept (P := fun v : State => v.cfg = s.cfg) (fun v n same => ?_)
      (fun v n same => (v.cfg_reflex _ _ n _ _ _).trans same) _ u cfg
    have config : v.config = s.config := by rw [State.config, same, State.config]
    have acts (x : ReflexEntry) : (x.enabled && decide (x.input = i) && decide (x.edge = edge)) = true
        ↔ x.enabled = true ∧ x.input = i ∧ x.edge = edge := by
      simp only [Bool.and_eq_true, decide_eq_true_eq, and_assoc]
    rw [State.reflex, config]
    exact if_congr (acts _) rfl rfl
  case insertion =>
    intro u behind
    have took := (exec_edgeQualified_insertion s).trans (congrArg _ (State.insertNext_of_first first))
    exact ⟨u.insertReflex h.action, _, took, State.queueReports_eq _ _, State.insertReflex_of_not_member (s := u) h.action,
      State.insertReflex_inserts (s := u) h.action⟩

end Sys2Proof.Machine
end

section
/-! PROOFS. The acceptance windows (R133, R134): when a selector passes them, and that START and HARDWARE_RESET alone write one. -/

namespace Sys2Proof.Machine

/-! ### The match of a selector -/

/-- A selector matches an enabled window where they agree in every bit of the mask (R134). -/
theorem Window.passes_iff (w : Window) (selector : Half) : w.passes selector = true ↔
    w.enabled = true ∧ ∀ b < 16, w.mask.getLsbD b = true → selector.getLsbD b = w.value.getLsbD b := by
  rw [passes, Bool.and_eq_true, decide_eq_true_iff]
  refine and_congr_right fun _ => ⟨fun same b _ masked => ?_, fun agree => BitVec.eq_of_getLsbD_eq fun b short => ?_⟩
  · have bit := congrArg (·.getLsbD b) same
    simpa [masked] using bit
  · cases masked : w.mask.getLsbD b with
    | false => simp [masked]
    | true => simp [masked, agree b short masked]

theorem State.passes_iff (s : State) (selector : Half) : s.passes selector = true ↔
    ∃ w ∈ s.exch.windows, w.enabled = true ∧ ∀ b < 16, w.mask.getLsbD b = true → selector.getLsbD b = w.value.getLsbD b := by
  simp only [passes, List.any_eq_true, Window.passes_iff]

/-! ### What leaves the windows: the commands but START -/

section

variable (s : State)

@[simp] theorem State.exch_answer (c : Command) (code : RespCode) (data : List Byte) : (s.answer c code data).exch = s.exch := rfl

@[simp] theorem State.exch_sendCommand (c : Command) (p : Payload) : (s.sendCommand c p).exch = s.exch :=
  s.exch_enqueue (.fresh p true none)

theorem State.exch_guarded {own : State → State} (c : Command) (kept : (own s).exch = s.exch) : (s.guarded c own).exch = s.exch := by
  unfold guarded
  split
  · exact kept
  · rfl

theorem State.exch_run {c : Command} (other : c ≠ .start) : (s.run c).exch = s.exch := by
  cases c with
  | start => exact absurd rfl other
  | nop | status | readPeers => exact s.exch_guarded _ rfl
  | stop => exact s.exch_guarded _ (s.exch_enterStopped .stop)
  | snapshot => exact s.exch_guarded _ (s.exch_enterLog _)
  | configure block =>
    refine s.exch_guarded _ ?_
    split <;> rfl
  | post scope fields =>
    refine s.exch_guarded _ ?_
    split
    · rfl
    split
    · rfl
    split
    · exact s.exch_insert _
    · exact s.exch_sendCommand _ _
  | amend scope selector serial new =>
    refine s.exch_guarded _ ?_
    split
    · rfl
    split
    · exact s.exch_amendEntry _ _
    · exact s.exch_sendCommand _ _
  | cancel scope selector serial =>
    refine s.exch_guarded _ ?_
    split
    · rfl
    split
    · exact s.exch_cancelEntry _
    · exact s.exch_sendCommand _ _
  | find origin serial =>
    refine s.exch_guarded _ ?_
    split
    · rfl
    dsimp only
    split <;> rfl
  | readLog count | readReports count =>
    refine s.exch_guarded _ ?_
    split <;> rfl
  | drive line kind =>
    refine s.exch_guarded _ ?_
    split
    · rfl
    split <;> rfl

/-! ### What leaves the windows: frames and attempts -/

@[simp] theorem State.exch_takeBeacon (sender : Station) (time : Time) (body : BeaconBody) (sof : Option SofRecord) :
    (s.takeBeacon sender time body sof).exch = s.exch := by
  have recorded : (s.recordBeacon sender time body sof).exch = s.exch := by
    unfold recordBeacon
    split <;> rfl
  unfold takeBeacon
  split
  · split <;> rfl
  · exact recorded
  · exact recorded
  all_goals rfl

@[simp] theorem State.exch_takeRemote (atOnce : Bool) (sender : Station) (p : Payload) :
    (s.takeRemote atOnce sender p).exch = s.exch := by
  unfold takeRemote
  split
  · dsimp only
    split
    · exact exch_takeAllHandedOn _
    · rfl
  · rfl

@[simp] theorem State.exch_handOn (atOnce : Bool) (f : Frame) (sof : Option SofRecord) : (s.handOn atOnce f sof).exch = s.exch := by
  unfold handOn
  split
  · exact s.exch_enterStopped _
  split
  · exact s.exch_takeBeacon _ _ _ _
  · exact s.exch_takeRemote _ _ _
  · exact s.exch_takeRemote _ _ _
  · exact s.exch_takeRemote _ _ _
  · unfold takeEvent
    split
    · exact s.exch_enterLog _
    · rfl
  · unfold takeRefuse
    split <;> rfl

@[simp] theorem State.exch_receive (atOnce : Bool) (f : PartialFrame) (samples : List Bool) :
    (s.receive atOnce f samples).exch = s.exch := by
  unfold receive
  dsimp only
  split
  · rfl
  · rfl
  · rfl
  · exact exch_handOn _ _ _ _

@[simp] theorem State.exch_complete (atOnce : Bool) (samples : List Bool) : (s.complete atOnce samples).exch = s.exch := by
  unfold complete
  split
  · exact s.exch_receive _ _ _
  · rfl

@[simp] theorem State.exch_transmissionSucceeded : s.transmissionSucceeded.exch = s.exch := by
  have delivered (u : State) (p : Payload) : (u.selfDeliver p).exch = u.exch := by
    have claimed := u.exch_applyClaim u.number .selfDelivery p
    unfold selfDeliver
    split
    · split <;> rename_i answer <;> rw [answer] at claimed <;> exact claimed
    · rfl
  unfold transmissionSucceeded
  split
  · rfl
  · dsimp only
    split
    · rfl
    · exact delivered _ _

@[simp] theorem State.exch_transmissionFailed : s.transmissionFailed.exch = s.exch := by
  unfold transmissionFailed
  repeat' split
  all_goals rfl

@[simp] theorem State.exch_afterMismatch (bit : Nat) : (s.afterMismatch bit).exch = s.exch := by
  unfold afterMismatch
  dsimp only
  cases s.line.afterSend with
  | off | seek => rfl
  | inStep => exact exch_receive _ _ _ _

@[simp] theorem State.exch_stick : s.stick.exch = s.exch := by
  unfold stick
  dsimp only
  split <;> rfl

/-! ### What leaves the windows: the events of time -/

@[simp] theorem State.exch_fireOwed : s.fireOwed.exch = s.exch := by
  unfold fireOwed
  split
  · rfl
  split
  · exact s.exch_fireDue _
  · rfl

@[simp] theorem State.exch_boundaryOwed (turn : LineTurn) : (s.boundaryOwed turn).exch = s.exch := by
  unfold boundaryOwed boundary
  split
  · rw [exch_takeHandedVerdict, exch_evaluation]
  · rfl

@[simp] theorem State.exch_evaluationOwed (turn : LineTurn) : (s.evaluationOwed turn).exch = s.exch := by
  unfold evaluationOwed
  split
  · exact s.exch_evaluation turn
  · rfl

@[simp] theorem State.exch_foundOwed : s.foundOwed.exch = s.exch := by
  unfold foundOwed
  split <;> rfl

theorem State.exch_beforeDue : s.beforeDue.exch = s.exch := by
  have kept {f : State → Fin 8 → State} (each : ∀ u i, (f u i).exch = u.exch) (l : List (Fin 8)) (u : State) :
      (l.foldl f u).exch = u.exch :=
    List.foldlRecOn (motive := fun v : State => v.exch = u.exch) _ _ rfl fun v same i _ => (each v i).trans same
  unfold beforeDue
  generalize List.finRange 8 = each
  rw [exch_foundOwed, kept fun u i => u.exch_qualify true i, exch_boundaryOwed, exch_fireOwed, kept fun u l => u.exch_endPulse l]
  simp

/-- Of what is left of the last tick a START in its sixteenth tick alone writes the windows (R172). -/
theorem State.exch_settle (early : ∀ n, s.port.work = .current .start n → n < 16) : s.settle.exch = s.exch := by
  rw [settle_eq_beforeDue, runDue, work_beforeDue]
  cases work : s.port.work with
  | idle => exact s.exch_beforeDue
  | refused r => exact s.exch_beforeDue
  | current c n =>
    dsimp only
    split
    · rename_i late
      have other : c ≠ .start := fun same => absurd (early n (same ▸ work)) (Nat.not_lt.2 late)
      rw [exch_run _ other, exch_beforeDue]
    · exact s.exch_beforeDue

theorem State.exch_tickNow (levels : BitVec 8) : (s.tickNow levels).exch = s.exch := by
  cases timed : s.clock.cluster with
  | none => simp [s.tickNow_of_untimed levels timed]
  | some c => simp [s.tickNow_of_timed levels timed]

/-! ### The rows -/

/-- The row leaves the windows. -/
abbrev KeepsWindows (i : Instr) : Prop := LeadsTo (fun t => t.exch = s.exch) (exec i s)

/-- The row of a command but START runs no START (R172, log 5). -/
theorem row_keepsWindows (c : Command) (other : c.row ≠ .start) : KeepsWindows s c.row := by
  unfold KeepsWindows
  by_cases current : ∃ d, s.ready = some d ∧ d.row = c.row
  · obtain ⟨d, ready, row⟩ := current
    obtain ⟨n, work, least, most⟩ := (State.ready_eq_some_iff d).1 ready
    have noStart : d ≠ .start := fun same => other (row ▸ congrArg Command.row same)
    rw [← row, s.exec_row d n work least most]
    exact .next (s.exch_run noStart)
  · rw [exec_row_unmet c fun d ready row => current ⟨d, ready, row⟩]
    exact .next rfl

theorem idleSlot_keepsWindows : KeepsWindows s .idleSlot := by
  have started (place : Nat) : (s.beginSlot.startFrame place).exch = s.exch := by
    unfold State.startFrame
    split <;> rfl
  show LeadsTo _ (execIdleSlot s)
  unfold execIdleSlot
  split
  · dsimp only
    split
    · exact .next rfl
    split
    · exact .next (started _)
    · exact .next rfl
  · exact .next rfl

theorem transmissionSuccess_keepsWindows : KeepsWindows s .transmissionSuccess := by
  show LeadsTo _ (execTransmissionSuccess s)
  unfold execTransmissionSuccess
  split
  · exact .next (State.exch_transmissionSucceeded _)
  · exact .next rfl

theorem readbackMismatch_keepsWindows (bit : Nat) : KeepsWindows s (.readbackMismatch bit) := by
  show LeadsTo _ (execReadbackMismatch bit s)
  unfold execReadbackMismatch
  split
  · exact .next ((State.exch_afterMismatch _ bit).trans s.exch_transmissionFailed)
  · exact .next rfl

theorem lineStuck_keepsWindows : KeepsWindows s .lineStuck := by
  show LeadsTo _ (execLineStuck s)
  unfold execLineStuck
  cases s.line.receiver with
  | off | stuck => exact .next rfl
  | seek | wait | receive => exact .next s.exch_stick
  | send =>
    cases s.line.afterSend with
    | off => exact .next s.exch_transmissionFailed
    | inStep | seek => exact .next ((State.exch_stick _).trans s.exch_transmissionFailed)

/-- Every row but START and HARDWARE_RESET leaves the windows, a TICK unless a START is in its sixteenth tick. A row of a command runs
the command that the port holds, so that the parameters named here are of no account. -/
theorem everyRow_keepsWindows (i : Instr) (noStart : i ≠ .start) (noReset : i ≠ .hardwareReset)
    (early : (∃ levels, i = .tick levels) → ∀ n, s.port.work = .current .start n → n < 16) : KeepsWindows s i := by
  cases i with
  | hardwareReset => exact absurd rfl noReset
  | start => exact absurd rfl noStart
  | tick levels => exact .next ((s.settle.exch_tickNow levels).trans (s.exch_settle (early ⟨levels, rfl⟩)))
  | roundBoundary event =>
    cases event with
    | whole turn => exact .next (s.exch_boundaryOwed turn)
    | evaluation turn => exact .next (s.exch_evaluationOwed turn)
    | verdict => exact .next s.exch_takeHandedVerdict
  | listenWindowExpiry => exact .next s.exch_foundOwed
  | firing => exact .next s.exch_fireOwed
  | pulseEnd line => exact .next (s.exch_endPulse line)
  | edgeQualified event =>
    cases event with
    | whole input => exact .next (s.exch_qualify true input)
    | handOver input => exact .next (s.exch_qualify false input)
    | insertion => exact .next s.exch_insertNext
  | frameCompletion event =>
    cases event with
    | whole samples => exact .next (s.exch_complete true samples)
    | handOver samples => exact .next (s.exch_complete false samples)
    | next => exact .next s.exch_takeHandedOn
  | idleSlot => exact idleSlot_keepsWindows s
  | transmissionSuccess => exact transmissionSuccess_keepsWindows s
  | readbackMismatch bit => exact readbackMismatch_keepsWindows s bit
  | lineStuck => exact lineStuck_keepsWindows s
  | lineIdle =>
    show LeadsTo _ (execLineIdle s)
    unfold execLineIdle
    split <;> exact .next rfl
  | startOfFrame =>
    show LeadsTo _ (execStartOfFrame s)
    unfold execStartOfFrame
    split <;> exact .next rfl
  | frameTruncated =>
    show LeadsTo _ (execFrameTruncated s)
    unfold execFrameTruncated
    repeat' split
    all_goals exact .next rfl
  | rejectedStartEdge =>
    show LeadsTo _ (execRejectedStartEdge s)
    unfold execRejectedStartEdge
    repeat' split
    all_goals exact .next rfl
  | stuckRunEnd =>
    show LeadsTo _ (execStuckRunEnd s)
    unfold execStuckRunEnd
    split <;> exact .next rfl
  | lineReleased =>
    show LeadsTo _ (execLineReleased s)
    unfold execLineReleased
    split <;> exact .next rfl
  | transactionBegin =>
    show LeadsTo _ (execTransactionBegin s)
    unfold execTransactionBegin State.beginTransaction
    repeat' split
    all_goals exact .next rfl
  | transactionEnd bits cut =>
    show LeadsTo _ (execTransactionEnd bits cut s)
    unfold execTransactionEnd State.endTransaction
    repeat' split
    all_goals exact .next rfl
  | nop => exact row_keepsWindows s .nop nofun
  | status => exact row_keepsWindows s .status nofun
  | configure => exact row_keepsWindows s (.configure []) nofun
  | stop => exact row_keepsWindows s .stop nofun
  | post => exact row_keepsWindows s (.post 0 (actionFieldsAt [] 0)) nofun
  | amend => exact row_keepsWindows s (.amend 0 0 0 ⟨0, 0⟩) nofun
  | cancel => exact row_keepsWindows s (.cancel 0 0 0) nofun
  | find => exact row_keepsWindows s (.find 0 0) nofun
  | readLog => exact row_keepsWindows s (.readLog 0) nofun
  | readReports => exact row_keepsWindows s (.readReports 0) nofun
  | readPeers => exact row_keepsWindows s .readPeers nofun
  | snapshot => exact row_keepsWindows s .snapshot nofun
  | drive => exact row_keepsWindows s (.drive 0 0) nofun

end

/-- Settles O49: the match bit by bit by `Window.passes_iff`, the windows by what every row leaves of them. -/
theorem windowsPass : Obligations.WindowsPass :=
  ⟨State.passes_iff, fun c s t took noStart noReset early => everyRow_keepsWindows s c noStart noReset early t took⟩

end Sys2Proof.Machine
end

section
/-! PROOFS. READ_LOG and READ_REPORTS by what they do with a count in range and with another (R157, R177, R182). -/

namespace Sys2Proof.Machine

theorem countOk_iff (count : Byte) : State.countOk count = true ↔ 1 ≤ count.toNat ∧ count.toNat ≤ 8 := by
  simp [State.countOk]

theorem countOk_eq_false {count : Byte} (bad : count = 0 ∨ 8 < count.toNat) : State.countOk count = false := by
  refine Bool.eq_false_iff.2 fun good => ?_
  obtain ⟨least, most⟩ := (countOk_iff count).1 good
  rcases bad with rfl | more
  · exact absurd least (by decide)
  · omega

section

variable {s : State} {count : Byte}

theorem State.runReadLog_of_bad (bad : countOk count = false) : s.runReadLog count = s.answer (.readLog count) .badParam [] := by
  rw [runReadLog, guarded_of_allowed _ rfl, bad]
  rfl

/-- A reading of a log that is not empty removes a record, and so ends the overflow episode (R157). -/
theorem State.runReadLog_of_good (good : countOk count = true) : s.runReadLog count =
    ((s.withCap { s.cap with
      log := s.cap.log.drop count.toNat
      episode := s.cap.episode && s.cap.log.isEmpty }).refreshAttn).answer (.readLog count) .ok
      (logData (s.cap.log.take count.toNat)) := by
  obtain ⟨least, _⟩ := (countOk_iff count).1 good
  have removes : (s.cap.log.take count.toNat).isEmpty = s.cap.log.isEmpty := by
    rw [Bool.eq_iff_iff, List.isEmpty_iff, List.isEmpty_iff, List.take_eq_nil_iff, or_iff_right (by omega)]
  rw [runReadLog, guarded_of_allowed _ rfl, good, ← removes]
  rfl

theorem State.runReadReports_of_bad (bad : countOk count = false) :
    s.runReadReports count = s.answer (.readReports count) .badParam [] := by
  rw [runReadReports, guarded_of_allowed _ rfl, bad]
  rfl

theorem State.runReadReports_of_good (good : countOk count = true) : s.runReadReports count =
    ((s.withPort { s.port with reports := s.port.reports.drop count.toNat }).refreshAttn).answer (.readReports count) .ok
      (reportData (s.port.reports.take count.toNat)) := by
  rw [runReadReports, guarded_of_allowed _ rfl, good]
  rfl

end

end Sys2Proof.Machine
end

section
/-! PROOFS. The records that a station keeps for its host: the capture log, the report queue and ATTN. Most operations leave them as they
are, and the others queue a report, enter a record of the log or read some out; so what these few keep, every operation keeps. -/

namespace Sys2Proof.Machine

/-- The capture log with its counter, the report queue, ATTN, and the configuration, whose threshold ATTN follows (R155, R181, R183). -/
def State.records (s : State) : List LogRecord × Half × List Report × Bool × Option ConfigBlock :=
  (s.cap.log, s.cap.logCounter, s.port.reports, s.port.attn, s.cfg)

/-- A property of the records that every change of them keeps. -/
structure RecordInvariant (P : State → Prop) : Prop where
  /-- nothing but the records has a part in it -/
  of_records : ∀ {s t : State}, t.records = s.records → P s → P t
  /-- a report arrives (R181) -/
  queueReport : ∀ {s : State}, P s → ∀ r, P (s.queueReport r)
  /-- a record arrives at the log (R155, R156) -/
  enterLog : ∀ {s : State}, P s → ∀ body, P (s.enterLog body).1
  /-- READ_LOG (R157) -/
  runReadLog : ∀ {s : State}, P s → ∀ count, P (s.runReadLog count)
  /-- READ_REPORTS (R182) -/
  runReadReports : ∀ {s : State}, P s → ∀ count, P (s.runReadReports count)
  /-- START in READY hands the configuration out (R77) -/
  startFromReady : ∀ {s : State}, P s → ∀ c, P (s.startFromReady c)
  /-- R93 -/
  reset : P State.reset

namespace RecordInvariant

section

variable {P : State → Prop} (inv : RecordInvariant P) {s : State} (holds : P s)

include inv holds

theorem frame {t : State} (kept : t.records = s.records) : P t := inv.of_records kept holds

theorem queueReports (l : List Report) : P (s.queueReports l) := List.foldlRecOn l _ holds fun _ holds r _ => inv.queueReport holds r

theorem report (d : ReportDetail) : P (s.report d) := inv.queueReport holds _

/-! ### The action queue -/

theorem told (u : State) (e : Entry) : P (u.told s e) := by
  unfold State.told
  dsimp only
  split
  · exact inv.report (inv.frame holds (by rfl)) _
  · exact inv.frame holds (by rfl)

theorem toldLate (e : Entry) (lateness : Option (BitVec 32)) : P (s.toldLate e lateness) := by
  cases lateness with
  | none => exact holds
  | some _ => exact inv.report holds _

theorem reinsert (rest : Option Entry) : P (s.reinsert rest) := inv.frame holds (by simp [State.records])

theorem fire (e : Entry) (lateness : Option (BitVec 32)) : P (s.fire e lateness) := by
  have once := inv.told (inv.toldLate holds e lateness) s e
  cases left : (stepEntry e s.now).1 with
  | none => rwa [State.fire_ended left]
  | some next =>
    by_cases due : next.due = s.now
    · rw [State.fire_again left due]
      exact inv.reinsert (inv.frame (inv.told once s next) (by rfl)) _
    · rw [State.fire_placed left due]
      exact inv.frame once (by rfl)

theorem insert (e : Entry) : P (s.insert e).1 := by
  rcases s.insert_state e with same | ⟨q, byDue⟩
  · rwa [same]
  · have removed : P (s.withSched q) := inv.frame holds (by rfl)
    rw [byDue]
    rcases (s.withSched q).insertByDue_state e with placed | ⟨l, fired⟩ | ⟨d, dropped⟩
    · rw [placed]
      exact inv.frame removed (by rfl)
    · rw [fired]
      exact inv.fire removed e l
    · rw [dropped]
      exact inv.report removed d

theorem amendEntry (id : ActionId) (new : Repeat) : P (s.amendEntry id new).1 := inv.frame holds (by simp [State.records])

theorem cancelEntry (id : ActionId) : P (s.cancelEntry id).1 := inv.frame holds (by simp [State.records])

theorem applyClaim (origin : Station) (source : Source) (p : Payload) : P (s.applyClaim origin source p).1 := by
  cases p with
  | action f => exact inv.insert holds _
  | amend selector serial new => exact inv.amendEntry holds _ _
  | cancel selector serial => exact inv.cancelEntry holds _
  | beacon | event | refuse => exact holds

theorem fireOwed : P s.fireOwed := by
  unfold State.fireOwed State.fireDue
  split
  · exact holds
  split
  · exact List.foldlRecOn _ _ (inv.frame holds (by rfl)) fun _ holds e _ => inv.fire holds e none
  · exact holds

theorem flush (cause : Cause) : P (s.flush cause) := by
  have flushed : P (s.withSched { s.sched with queue := [] }) := inv.frame holds (by rfl)
  unfold State.flush
  dsimp only
  split
  · exact flushed
  · exact inv.report flushed _

/-! ### The transmit queue -/

theorem enqueue (r : TxRecord) : P (s.enqueue r).1 := inv.frame holds (by simp [State.records])

theorem refuse (id : ActionId) (reason : Byte) : P (s.refuse id reason) := by
  have asked := inv.enqueue holds (.fresh (.refuse id.origin id.serial reason) false none)
  unfold State.refuse
  split <;> rename_i answer <;> rw [answer] at asked
  · exact inv.report asked _
  · exact asked

theorem takeHandedOn : P s.takeHandedOn := by
  unfold State.takeHandedOn
  split
  · exact holds
  · rename_i sender p rest _
    have claimed := inv.applyClaim (s := s.withOwed { s.owed with exchange := rest }) (inv.frame holds (by rfl)) sender .remote p
    split <;> rename_i answer <;> rw [answer] at claimed
    · exact claimed
    · exact inv.frame claimed (by rfl)
  · exact inv.refuse (inv.frame holds (by rfl)) _ _

theorem takeAllHandedOn : P s.takeAllHandedOn := List.foldlRecOn _ _ holds fun _ holds _ _ => inv.takeHandedOn holds

/-! ### Changes of state -/

theorem changeState (new : StationState) (cause : Cause) : P (s.changeState new cause) := inv.report (inv.frame holds (by rfl)) _

theorem tellWaiting : P s.tellWaiting := inv.queueReports (inv.frame holds (by rfl)) _

/-- The clock unit takes its part of a change of state before the report of it (R75). -/
theorem changeStateAt (clock : ClockUnit) (member : Membership) (new : StationState) (cause : Cause) :
    P (((s.withClock clock).withMember member).changeState new cause) := inv.changeState (inv.frame holds (by rfl)) new cause

theorem teardownToListen (cause : Cause) : P (s.teardownToListen cause) := by
  have told := inv.tellWaiting holds
  generalize waiting : s.tellWaiting = u at told
  have left := inv.changeStateAt told (u.clock.left true) { u.member with alone := true } .listen cause
  rw [State.teardownToListen, waiting]
  exact inv.flush (inv.frame left (by rfl)) cause

theorem teardownToStopped (cause : Cause) : P (s.teardownToStopped cause) := by
  have told := inv.tellWaiting holds
  generalize waiting : s.tellWaiting = u at told
  have left := inv.changeStateAt told (u.clock.left false) { u.member with alone := true } .stopped cause
  rw [State.teardownToStopped, waiting]
  exact inv.flush (inv.frame left (by rfl)) cause

theorem stopListening (cause : Cause) : P (s.stopListening cause) :=
  inv.frame (inv.changeStateAt holds { s.clock with listen := none } s.member .stopped cause) (by rfl)

theorem enterStopped (cause : Cause) : P (s.enterStopped cause) := by
  unfold State.enterStopped
  cases s.member.state with
  | listen => exact inv.stopListening holds cause
  | joining | member => exact inv.teardownToStopped holds cause
  | unconfigured | ready | stopped => exact holds

theorem foundOwed : P s.foundOwed := by
  unfold State.foundOwed
  split
  · exact inv.changeState (inv.frame holds (by rfl)) _ _
  · exact holds

theorem enterListen : P s.enterListen := inv.changeState (inv.frame holds (by rfl)) _ _

/-! ### The round boundary -/

theorem lineErrors (now turn : LineTurn) (errors : Nat) (stamp : Time) : P (s.lineErrors now turn errors stamp) := by
  unfold State.lineErrors
  split
  · exact inv.queueReport holds _
  · exact holds

theorem reportPeers (before after : Vector PeerRecord 16) : P (s.reportPeers before after) := by
  refine List.foldlRecOn _ _ holds fun u holds i _ => ?_
  split
  · exact holds
  · exact inv.report holds _

theorem setAlone (alone : Bool) : P (s.setAlone alone) := by
  have set : P (s.withMember { s.member with alone := alone }) := inv.frame holds (by rfl)
  unfold State.setAlone
  dsimp only
  split
  · exact inv.report set _
  · exact set

theorem evaluation (turn : LineTurn) : P (s.evaluation turn) := by
  have begun : P (s.beginBoundary turn) := inv.frame holds (by rfl)
  have first := inv.lineErrors begun .first turn s.line.errors s.now
  have evaluated : P ((s.beginBoundary turn).lineErrors .first turn s.line.errors s.now).evaluate :=
    inv.setAlone (inv.reportPeers (inv.frame first (by rfl)) _ _) _
  exact inv.frame (inv.lineErrors evaluated .middle turn s.line.errors s.now) (by simp [State.records, State.evaluation])

theorem takeVerdict (v : Verdict) : P (s.takeVerdict v) := by
  rcases v.effect_cases s.member.state with ⟨rfl, state⟩ | ⟨rfl, state⟩ | ⟨rfl, state⟩ | void
  · rw [State.takeVerdict_join state]
    exact inv.changeState holds _ _
  · rw [State.takeVerdict_joinFailure state]
    exact inv.teardownToListen holds _
  · rw [State.takeVerdict_split state]
    exact inv.teardownToListen holds _
  · rwa [State.takeVerdict_void void]

theorem takeHandedVerdict : P s.takeHandedVerdict := by
  unfold State.takeHandedVerdict
  split
  · exact holds
  · rename_i h _
    exact inv.lineErrors (inv.takeVerdict (s := s.dropVerdict h.turn) (inv.frame holds (by rfl)) h.verdict) _ _ _ _

theorem evaluationOwed (turn : LineTurn) : P (s.evaluationOwed turn) := by
  unfold State.evaluationOwed
  split
  · exact inv.evaluation holds turn
  · exact holds

theorem boundaryOwed (turn : LineTurn) : P (s.boundaryOwed turn) := by
  unfold State.boundaryOwed
  split
  · exact inv.takeHandedVerdict (inv.evaluation holds turn)
  · exact holds

/-! ### Edges of the inputs and their reflexes -/

theorem insertNext : P s.insertNext := by
  unfold State.insertNext State.insertReflex
  split
  · exact holds
  · rename_i h rest _
    have inserted := inv.insert (s := s.withOwed { s.owed with insertions := rest }) (inv.frame holds (by rfl))
      (h.action.entry s.number .reflex)
    dsimp only
    refine inv.queueReports ?_ _
    split
    · exact inserted
    · exact inv.report inserted _

theorem insertHandedOver : P s.insertHandedOver := List.foldlRecOn _ _ holds fun _ holds _ _ => inv.insertNext holds

theorem reportNotSent (earlier : Nat) (kind : FrameKind) (n : Fin 16) : P (s.reportNotSent earlier kind n) := by
  rcases s.reportNotSent_cases earlier kind n with ⟨_, reported⟩ | ⟨before, h, _, _, waits⟩
  · rw [reported]
    exact inv.report holds _
  · rw [waits]
    exact inv.frame holds (by rfl)

theorem publish (earlier : Nat) (n : Fin 16) (x : ReflexEntry) (stamp : Time) : P (s.publish earlier n x stamp) := by
  have asked := inv.enqueue holds (.fresh (.event x.selector x.input x.edge stamp s.cap.eventCounter) false (some n))
  unfold State.publish
  split <;> rename_i answer <;> rw [answer] at asked
  · exact inv.frame asked (by rfl)
  · exact inv.reportNotSent asked _ _ _
  · exact asked

theorem reflexPost (earlier : Nat) (n : Fin 16) (x : ReflexEntry) (stamp : Time) : P (s.reflexPost earlier n x stamp) := by
  have asked := inv.enqueue holds (.fresh (.action (s.reflexAction x stamp)) true (some n))
  unfold State.reflexPost
  split <;> rename_i answer <;> rw [answer] at asked
  · exact inv.frame asked (by rfl)
  · exact inv.reportNotSent asked _ _ _
  · exact asked

theorem reflexLocal (atOnce : Bool) (x : ReflexEntry) (stamp : Time) : P (s.reflexLocal atOnce x stamp) := by
  have handed : P (s.takeSerial.withOwed { s.owed with
      insertions := s.owed.insertions ++ [{ action := s.reflexAction x stamp, behind := [] }] }) := inv.frame holds (by rfl)
  unfold State.reflexLocal
  dsimp only
  split
  · exact inv.insertHandedOver handed
  · exact handed

theorem reflex (earlier : Nat) (atOnce : Bool) (n : Fin 16) (input : Fin 8) (edge : EdgeDir) (stamp : Time) :
    P (s.reflex earlier atOnce n input edge stamp) := by
  unfold State.reflex
  dsimp only
  split
  · cases (s.config.reflexes[n]).effect with
    | publish => exact inv.publish holds _ _ _ _
    | post => exact inv.reflexPost holds _ _ _ _
    | toSelf => exact inv.reflexLocal holds _ _ _
  · exact holds

theorem takeEdge (atOnce : Bool) (input : Fin 8) (edge : EdgeDir) (first : SampleRecord) :
    P (s.takeEdge atOnce input edge first) := by
  unfold State.takeEdge State.runReflexes
  dsimp only
  split
  · have entered (body : LogBody) := inv.enterLog holds body
    split
    · generalize List.finRange 16 = entries
      exact List.foldlRecOn entries _ (entered _) fun _ holds n _ => inv.reflex holds _ atOnce n input _ _
    · exact entered _
  · exact holds

theorem qualify (atOnce : Bool) (input : Fin 8) : P (s.qualify atOnce input) := by
  unfold State.qualify
  split
  · exact holds
  dsimp only
  split
  · exact holds
  split
  · exact inv.takeEdge (inv.frame holds (by rfl)) _ _ _ _
  · exact holds

end

end RecordInvariant

end Sys2Proof.Machine
end

section
/-! PROOFS. What keeps the records in every operation of the cluster line and in every command. -/

namespace Sys2Proof.Machine

namespace RecordInvariant

section

variable {P : State → Prop} (inv : RecordInvariant P) {s : State} (holds : P s)

include inv holds

/-! ### Reception -/

/-- Adoption is a change of state (R48, R81), and a recorded beacon touches the peer table alone (R55). -/
theorem takeBeacon (sender : Station) (time : Time) (body : BeaconBody) (sof : Option SofRecord) :
    P (s.takeBeacon sender time body sof) := by
  have recorded : P (s.recordBeacon sender time body sof) := by
    unfold State.recordBeacon
    split
    · exact holds
    · exact inv.frame holds (by rfl)
  unfold State.takeBeacon
  cases s.member.state with
  | listen =>
    dsimp only
    split
    · exact inv.changeState (inv.frame holds (by rfl)) _ _
    · exact holds
  | joining | member => exact recorded
  | unconfigured | ready | stopped => exact holds

theorem takeRemote (atOnce : Bool) (sender : Station) (p : Payload) : P (s.takeRemote atOnce sender p) := by
  have handed : P (s.withOwed { s.owed with exchange := s.owed.exchange ++ [.claim sender p] }) := inv.frame holds (by rfl)
  unfold State.takeRemote
  split
  · dsimp only
    split
    · exact inv.takeAllHandedOn handed
    · exact handed
  · exact holds

/-- Of a valid frame an EVENT makes a record and a REFUSE a report; the others go to their blocks (R15, R16). -/
theorem handOn (atOnce : Bool) (f : Frame) (sof : Option SofRecord) : P (s.handOn atOnce f sof) := by
  unfold State.handOn
  split
  · exact inv.enterStopped holds _
  · cases f.payload with
    | beacon time body => exact inv.takeBeacon holds _ _ _ _
    | action | amend | cancel => exact inv.takeRemote holds _ _ _
    | event =>
      unfold State.takeEvent
      dsimp only
      split
      · exact inv.enterLog holds _
      · exact holds
    | refuse =>
      unfold State.takeRefuse
      dsimp only
      split
      · exact inv.report holds _
      · exact holds

theorem receive (atOnce : Bool) (f : PartialFrame) (samples : List Bool) : P (s.receive atOnce f samples) := by
  unfold State.receive
  dsimp only
  cases takeSamples f samples with
  | more | truncated | error => exact inv.frame holds (by rfl)
  | valid frame => exact inv.handOn (inv.frame holds (by rfl)) _ _ _

theorem complete (atOnce : Bool) (samples : List Bool) : P (s.complete atOnce samples) := by
  unfold State.complete
  split
  · exact inv.receive holds _ _ _
  · exact holds

/-! ### The own frame -/

theorem selfDeliver (p : Payload) : P (s.selfDeliver p) := by
  have claimed := inv.applyClaim holds s.number .selfDelivery p
  unfold State.selfDeliver
  split
  · split <;> rename_i answer <;> rw [answer] at claimed
    · exact claimed
    · exact inv.report claimed _
  · exact holds

theorem transmissionSucceeded : P s.transmissionSucceeded := by
  have removed : P s.removeTransmitted := inv.frame holds (by rfl)
  unfold State.transmissionSucceeded
  split
  · exact holds
  · dsimp only
    split
    · exact removed
    · exact inv.selfDeliver removed _

theorem transmissionFailed : P s.transmissionFailed := by
  have removed : P s.removeTransmitted := inv.frame holds (by rfl)
  unfold State.transmissionFailed
  split
  · exact holds
  split
  · exact removed
  split
  · exact inv.report removed _
  · exact inv.frame holds (by rfl)

theorem afterMismatch (bit : Nat) : P (s.afterMismatch bit) := by
  unfold State.afterMismatch
  dsimp only
  cases s.line.afterSend with
  | off | seek => exact inv.frame holds (by rfl)
  | inStep => exact inv.receive (inv.frame holds (by rfl)) _ _ _

theorem stick : P s.stick := by
  unfold State.stick
  dsimp only
  split
  · exact inv.frame holds (by rfl)
  · exact inv.report (inv.frame holds (by rfl)) _

/-! ### The commands -/

theorem answer (c : Command) (code : RespCode) (data : List Byte) : P (s.answer c code data) := inv.frame holds (by rfl)

theorem guarded {own : State → State} (c : Command) (kept : P (own s)) : P (s.guarded c own) := by
  unfold State.guarded
  split
  · exact kept
  · exact inv.answer holds _ _ _

theorem sendCommand (c : Command) (p : Payload) : P (s.sendCommand c p) :=
  inv.frame (inv.enqueue holds (.fresh p true none)) (by rfl)

theorem runConfigure (block : List Byte) : P (s.runConfigure block) := by
  refine inv.guarded holds _ ?_
  split
  · exact inv.answer holds _ _ _
  · exact inv.frame holds (by rfl)

theorem runStart : P s.runStart := by
  refine inv.guarded holds _ (inv.answer ?_ _ _ _)
  split
  · exact inv.startFromReady holds _
  · exact inv.enterListen holds

theorem runPost (scope : Byte) (f : ActionFields) : P (s.runPost scope f) := by
  unfold State.runPost
  refine inv.guarded holds _ ?_
  split
  · exact inv.answer holds _ _ _
  split
  · exact inv.answer holds _ _ _
  split
  · exact inv.answer (inv.insert holds _) _ _ _
  · exact inv.sendCommand holds _ _

theorem runAmend (scope : Byte) (selector serial : Half) (new : Repeat) : P (s.runAmend scope selector serial new) := by
  unfold State.runAmend
  refine inv.guarded holds _ ?_
  split
  · exact inv.answer holds _ _ _
  split
  · exact inv.answer (inv.amendEntry holds _ _) _ _ _
  · exact inv.sendCommand holds _ _

theorem runCancel (scope : Byte) (selector serial : Half) : P (s.runCancel scope selector serial) := by
  unfold State.runCancel
  refine inv.guarded holds _ ?_
  split
  · exact inv.answer holds _ _ _
  split
  · exact inv.answer (inv.cancelEntry holds _) _ _ _
  · exact inv.sendCommand holds _ _

theorem runFind (origin : Byte) (serial : Half) : P (s.runFind origin serial) := by
  unfold State.runFind
  refine inv.guarded holds _ ?_
  split
  · exact inv.answer holds _ _ _
  dsimp only
  split <;> exact inv.answer holds _ _ _

theorem runDrive (line kind : Byte) : P (s.runDrive line kind) := by
  unfold State.runDrive
  refine inv.guarded holds _ ?_
  split
  · exact inv.answer holds _ _ _
  split
  · exact inv.answer holds _ _ _
  · exact inv.frame holds (by rfl)

theorem run (c : Command) : P (s.run c) := by
  cases c with
  | nop | status | readPeers =>
    unfold State.run
    exact inv.guarded holds _ (inv.answer holds _ _ _)
  | snapshot =>
    unfold State.run
    exact inv.guarded holds _ (inv.answer (inv.enterLog holds _) _ _ _)
  | stop =>
    unfold State.run
    exact inv.guarded holds _ (inv.answer (inv.enterStopped holds .stop) _ _ _)
  | configure block => exact inv.runConfigure holds block
  | start => exact inv.runStart holds
  | post scope fields => exact inv.runPost holds scope fields
  | amend scope selector serial new => exact inv.runAmend holds scope selector serial new
  | cancel scope selector serial => exact inv.runCancel holds scope selector serial
  | find origin serial => exact inv.runFind holds origin serial
  | readLog count => exact inv.runReadLog holds count
  | readReports count => exact inv.runReadReports holds count
  | drive line kind => exact inv.runDrive holds line kind

end

end RecordInvariant

end Sys2Proof.Machine
end

section
/-! PROOFS. What keeps the records at a tick and in every row, and so in every step. -/

namespace Sys2Proof.Machine

namespace RecordInvariant

section

variable {P : State → Prop} (inv : RecordInvariant P) {s : State} (holds : P s)

include inv holds

/-! ### The tick -/

theorem endPulse (l : Fin 8) : P (s.endPulse l) := inv.frame holds (by simp [State.records])

theorem runDue : P s.runDue := by
  unfold State.runDue
  split
  · split
    · exact inv.run holds _
    · exact holds
  all_goals exact holds

/-- What is left of the last tick is taken by operations that keep the records so (log 1). -/
theorem settle : P s.settle := by
  have handedOver := inv.takeHandedVerdict (inv.takeAllHandedOn (inv.insertHandedOver holds))
  unfold State.settle
  generalize List.finRange 8 = each
  have pulses := List.foldlRecOn each _ handedOver fun _ holds l _ => inv.endPulse holds l
  have boundary := inv.boundaryOwed (inv.fireOwed pulses) .first
  have edges := List.foldlRecOn each _ boundary fun _ holds i _ => inv.qualify holds true i
  exact inv.runDue (inv.foundOwed edges)

/-- A tick that owes nothing more leaves the records (R36). -/
theorem tickNow (levels : BitVec 8) : P (s.tickNow levels) := by
  obtain ⟨_, _, _, _, _, _, cfg⟩ := s.tickNow_frame levels
  have port : s.tickPort.port.reports = s.port.reports ∧ s.tickPort.port.attn = s.port.attn := by
    unfold State.tickPort
    split <;> exact ⟨rfl, rfl⟩
  obtain ⟨reports, attn⟩ := port
  refine inv.frame holds ?_
  rw [State.records, s.cap_tickNow, s.port_tickNow, cfg, reports, attn]
  rfl

/-! ### The rows -/

/-- A row of a command executes nothing, or a command (R172). -/
theorem row (c : Command) : LeadsTo P (exec c.row s) := by
  rcases exec_row_cases s c with same | ⟨d, runs⟩
  · rw [same]
    exact .next holds
  · rw [runs]
    exact .next (inv.run holds d)

theorem idleSlot : LeadsTo P (execIdleSlot s) := by
  have started (place : Nat) : P (s.beginSlot.startFrame place) := by
    unfold State.startFrame
    split <;> exact inv.frame holds (by rfl)
  unfold execIdleSlot
  split
  · dsimp only
    split
    · exact .next (inv.frame holds (by rfl))
    split
    · exact .next (started _)
    · exact .next (inv.frame holds (by rfl))
  · exact .next holds

theorem frameCompletion (event : FrameEvent) : LeadsTo P (execFrameCompletion event s) := by
  cases event with
  | whole samples => exact .next (inv.complete holds true samples)
  | handOver samples => exact .next (inv.complete holds false samples)
  | next => exact .next (inv.takeHandedOn holds)

theorem transmissionSuccess : LeadsTo P (execTransmissionSuccess s) := by
  unfold execTransmissionSuccess State.endSend
  split
  · exact .next (inv.transmissionSucceeded (inv.frame holds (by rfl)))
  · exact .next holds

theorem readbackMismatch (bit : Nat) : LeadsTo P (execReadbackMismatch bit s) := by
  unfold execReadbackMismatch
  split
  · exact .next (inv.afterMismatch (inv.transmissionFailed holds) bit)
  · exact .next holds

/-- A line that sticks in SEND fails the attempt first (log 11). -/
theorem lineStuck : LeadsTo P (execLineStuck s) := by
  have failed := inv.transmissionFailed holds
  unfold execLineStuck
  cases s.line.receiver with
  | off | stuck => exact .next holds
  | seek | wait | receive => exact .next (inv.stick holds)
  | send =>
    cases s.line.afterSend with
    | off => exact .next (inv.frame failed (by rfl))
    | inStep | seek => exact .next (inv.stick failed)

theorem lineReleased : LeadsTo P (execLineReleased s) := by
  unfold execLineReleased
  split
  · exact .next (inv.report (inv.frame holds (by rfl)) _)
  · exact .next holds

/-- Every row keeps the records so. A row of a command runs the command that the port holds, so that the parameters named here are of no
account. -/
theorem everyRow (i : Instr) : LeadsTo P (exec i s) := by
  cases i with
  | hardwareReset => exact .next (inv.frame inv.reset (by rfl))
  | tick levels => exact .next (inv.tickNow (inv.settle holds) levels)
  | roundBoundary event =>
    cases event with
    | whole turn => exact .next (inv.boundaryOwed holds turn)
    | evaluation turn => exact .next (inv.evaluationOwed holds turn)
    | verdict => exact .next (inv.takeHandedVerdict holds)
  | listenWindowExpiry => exact .next (inv.foundOwed holds)
  | firing => exact .next (inv.fireOwed holds)
  | pulseEnd l => exact .next (inv.endPulse holds l)
  | edgeQualified event =>
    cases event with
    | whole input => exact .next (inv.qualify holds true input)
    | handOver input => exact .next (inv.qualify holds false input)
    | insertion => exact .next (inv.insertNext holds)
  | idleSlot => exact inv.idleSlot holds
  | frameCompletion event => exact inv.frameCompletion holds event
  | transmissionSuccess => exact inv.transmissionSuccess holds
  | readbackMismatch bit => exact inv.readbackMismatch holds bit
  | lineStuck => exact inv.lineStuck holds
  | lineReleased => exact inv.lineReleased holds
  | lineIdle =>
    show LeadsTo P (execLineIdle s)
    unfold execLineIdle
    split <;> exact .next (inv.frame holds (by rfl))
  | startOfFrame =>
    show LeadsTo P (execStartOfFrame s)
    unfold execStartOfFrame
    split <;> exact .next (inv.frame holds (by rfl))
  | frameTruncated =>
    show LeadsTo P (execFrameTruncated s)
    unfold execFrameTruncated
    repeat' split
    all_goals exact .next (inv.frame holds (by rfl))
  | rejectedStartEdge =>
    show LeadsTo P (execRejectedStartEdge s)
    unfold execRejectedStartEdge
    repeat' split
    all_goals exact .next (inv.frame holds (by rfl))
  | stuckRunEnd =>
    show LeadsTo P (execStuckRunEnd s)
    unfold execStuckRunEnd
    split <;> exact .next (inv.frame holds (by rfl))
  | transactionBegin =>
    show LeadsTo P (execTransactionBegin s)
    unfold execTransactionBegin State.beginTransaction
    repeat' split
    all_goals exact .next (inv.frame holds (by rfl))
  | transactionEnd bits cut =>
    show LeadsTo P (execTransactionEnd bits cut s)
    unfold execTransactionEnd State.endTransaction
    repeat' split
    all_goals exact .next (inv.frame holds (by rfl))
  | nop => exact inv.row holds .nop
  | status => exact inv.row holds .status
  | configure => exact inv.row holds (.configure [])
  | start => exact inv.row holds .start
  | stop => exact inv.row holds .stop
  | post => exact inv.row holds (.post 0 (actionFieldsAt [] 0))
  | amend => exact inv.row holds (.amend 0 0 0 ⟨0, 0⟩)
  | cancel => exact inv.row holds (.cancel 0 0 0)
  | find => exact inv.row holds (.find 0 0)
  | readLog => exact inv.row holds (.readLog 0)
  | readReports => exact inv.row holds (.readReports 0)
  | readPeers => exact inv.row holds .readPeers
  | snapshot => exact inv.row holds .snapshot
  | drive => exact inv.row holds (.drive 0 0)

omit holds in
/-- A property of the records that every change of them keeps, every step keeps. -/
theorem step (s t : State) (holds : P s) (took : step s = .next t) : P t :=
  step_keeps (fun _ _ holds => inv.frame holds (by rfl)) (fun i _ holds => inv.everyRow holds i) s t holds took

end

end RecordInvariant

end Sys2Proof.Machine
end

section
/-! PROOFS. The capture log holds at most 64 records, each log sequence one after that of the record before it (R155), in every step. -/

namespace Sys2Proof.Machine

/-! ### Consecutive records -/

/-- The oldest record may go, and the rest is as consecutive as it was. -/
theorem State.consecutive_tail {l : List LogRecord} (ok : consecutive l = true) : consecutive l.tail = true := by
  match l, ok with
  | [], _ | [_], _ => rfl
  | _ :: _ :: _, ok => exact (Bool.and_eq_true_iff.1 ok).2

theorem State.consecutive_drop {l : List LogRecord} (ok : consecutive l = true) (n : Nat) : consecutive (l.drop n) = true := by
  induction n with
  | zero => exact ok
  | succ n ih =>
    rw [← List.tail_drop]
    exact consecutive_tail ih

/-- A record whose sequence is one after the newest may follow it. -/
theorem State.consecutive_append {l : List LogRecord} {r : LogRecord} (ok : consecutive l = true)
    (next : ∀ last ∈ l.getLast?, last.sequence + 1 = r.sequence) : consecutive (l ++ [r]) = true := by
  induction l with
  | nil => rfl
  | cons a rest ih =>
    cases rest with
    | nil => exact Bool.and_eq_true_iff.2 ⟨decide_eq_true (next a rfl), rfl⟩
    | cons b rest =>
      obtain ⟨first, rest⟩ := Bool.and_eq_true_iff.1 ok
      exact Bool.and_eq_true_iff.2 ⟨first, ih rest next⟩

/-! ### The log under its changes -/

/-- What R155 says of a log and the counter that numbers its next record. -/
structure LogFits (log : List LogRecord) (counter : Half) : Prop where
  bound : log.length ≤ 64
  consecutive : State.consecutive log = true
  newest : ∀ last ∈ log.getLast?, last.sequence + 1 = counter

theorem State.logOk_iff (s : State) : s.LogOk ↔ LogFits s.cap.log s.cap.logCounter := by
  have newest : s.cap.log.getLast?.all (fun r => r.sequence + 1 = s.cap.logCounter) = true
      ↔ ∀ last ∈ s.cap.log.getLast?, last.sequence + 1 = s.cap.logCounter := by simp [Option.all_eq_true]
  exact ⟨fun ⟨bound, each, last⟩ => ⟨bound, each, newest.1 last⟩,
    fun ⟨bound, each, last⟩ => ⟨bound, each, newest.2 last⟩⟩

namespace LogFits

variable {log : List LogRecord} {counter : Half} (fits : LogFits log counter)

include fits

theorem drop (n : Nat) : LogFits (log.drop n) counter where
  bound := by
    have := fits.bound
    rw [List.length_drop]
    omega
  consecutive := State.consecutive_drop fits.consecutive n
  newest last held := by
    rw [List.getLast?_drop] at held
    split at held
    · cases held
    · exact fits.newest last held

/-- A record takes the counter's sequence at a log with room (R155). -/
theorem append (room : log.length < 64) (body : LogBody) :
    LogFits (log ++ [{ sequence := counter, body := body }]) (counter + 1) where
  bound := by
    rw [List.length_append, List.length_singleton]
    omega
  consecutive := State.consecutive_append fits.consecutive fits.newest
  newest last held := by
    rw [List.getLast?_concat] at held
    rw [← Option.some.inj held]

end LogFits

namespace State.LogOk

variable {s : State} (ok : s.LogOk)

include ok

/-- A record that is entered takes the next sequence, in place of the oldest at a full log; one that is discarded leaves the log
(R155, R156). -/
theorem enterLog (body : LogBody) : (s.enterLog body).1.LogOk := by
  have fits := s.logOk_iff.1 ok
  rw [logOk_iff]
  by_cases room : s.cap.log.length < 64
  · rw [enterLog_room body room]
    exact fits.append room body
  · have full := Nat.not_lt.1 room
    cases policy : s.config.logPolicy with
    | stop =>
      rw [(enterLog_full body full).1 policy, log_logLoss, logCounter_logLoss]
      exact fits
    | wrap =>
      have oldestGone : s.cap.log.tail.length < 64 := by
        have := fits.bound
        rw [List.length_tail]
        omega
      rw [(enterLog_full body full).2 policy, log_logLoss, logCounter_logLoss]
      exact LogFits.append (List.drop_one ▸ fits.drop 1) oldestGone body

/-- READ_LOG takes the oldest records (R157). -/
theorem runReadLog (count : Byte) : (s.runReadLog count).LogOk := by
  cases good : countOk count with
  | false =>
    rw [runReadLog_of_bad good]
    exact ok
  | true =>
    rw [runReadLog_of_good good]
    exact (logOk_iff _).2 ((s.logOk_iff.1 ok).drop count.toNat)

/-- READ_REPORTS has no part in the log. -/
theorem runReadReports (count : Byte) : (s.runReadReports count).LogOk := by
  cases good : countOk count with
  | false =>
    rw [runReadReports_of_bad good]
    exact ok
  | true =>
    rw [runReadReports_of_good good]
    exact ok

end State.LogOk

/-- Every change of the log keeps its bound and its sequences, and the other changes of the records leave the log. -/
theorem logOk_recordInvariant : RecordInvariant State.LogOk where
  of_records kept ok := by
    simp only [State.records, Prod.mk.injEq] at kept
    obtain ⟨log, counter, _⟩ := kept
    rw [State.LogOk, log, counter]
    exact ok
  queueReport ok _ := ok
  enterLog ok body := ok.enterLog body
  runReadLog ok count := ok.runReadLog count
  runReadReports ok count := ok.runReadReports count
  startFromReady ok _ := ok
  reset := ⟨Nat.zero_le _, rfl, rfl⟩

/-- Settles O52: an arrival and a reading keep the log so, and every other operation leaves it. -/
theorem logKept : Obligations.LogKept := logOk_recordInvariant.step

end Sys2Proof.Machine
end

section
/-! PROOFS. A qualified edge on which no reflex acts (R150, R151, R153–R156, R162). -/

namespace Sys2Proof.Machine

section

variable {s : State} {i : Fin 8} {x : InputFilter} {first : SampleRecord}

/-- The stamp is a cluster stamp where cluster time is valid and was at the first sample (R151). -/
theorem State.edgeStamp_eq (s : State) (first : SampleRecord) : s.edgeStamp first =
    (if s.valid then first.cluster.getD first.ticks else first.ticks,
      if s.valid && first.cluster.isSome then .clusterTime else .localTicks) := by
  obtain ⟨ticks, cluster⟩ := first
  unfold edgeStamp
  cases s.valid with
  | false => rfl
  | true => cases cluster <;> rfl

/-- The log record of an edge, with the stamp of its first sample (R151, R154). -/
def State.recordOf (s : State) (i : Fin 8) (x : InputFilter) (first : SampleRecord) : LogBody :=
  { station := s.number
    channel := .input i
    edge := if !x.level then .rise else .fall
    stamp := if s.valid then first.cluster.getD first.ticks else first.ticks
    base := if s.valid && first.cluster.isSome then .clusterTime else .localTicks
    synced := decide (s.member.state = .member) && (s.valid && first.cluster.isSome)
    remote := none }

theorem State.edgeRecord_of_stamp (s : State) (i : Fin 8) (x : InputFilter) (first : SampleRecord) :
    s.edgeRecord i x.edge (s.edgeStamp first).1 (s.edgeStamp first).2 = s.recordOf i x first := by
  rw [edgeStamp_eq]
  unfold edgeRecord recordOf InputFilter.edge
  cases s.valid && first.cluster.isSome <;> cases x.level <;> simp

/-- An edge that the mode does not select does nothing more (R153). -/
theorem State.takeEdge_of_unselected (atOnce : Bool) {edge : EdgeDir} (first : SampleRecord)
    (unselected : selects (s.config.inputs[i]).mode edge = false) : s.takeEdge atOnce i edge first = s :=
  if_neg (Bool.eq_false_iff.1 unselected)

/-- Where no entry names an edge, the reflex table leaves the state (R162). -/
theorem State.runReflexes_of_unnamed (atOnce : Bool) {edge : EdgeDir} (stamp : Time)
    (unnamed : ∀ n : Fin 16, (s.config.reflexes[n]).enabled = true → (s.config.reflexes[n]).input = i →
      (s.config.reflexes[n]).edge ≠ edge) : s.runReflexes atOnce i edge stamp = s := by
  refine List.foldl_fixed' (fun n => if_neg fun acts => ?_) _
  simp only [Bool.and_eq_true, decide_eq_true_eq] at acts
  obtain ⟨⟨enabled, input⟩, named⟩ := acts
  exact unnamed n enabled input named

/-- A selected edge makes its record and nothing else, unless in MEMBER with a cluster stamp an entry names it (R153, R162). -/
theorem State.takeEdge_of_unnamed (atOnce : Bool) (selected : selects (s.config.inputs[i]).mode x.edge = true)
    (unnamed : s.member.state = .member → (s.valid && first.cluster.isSome) = true → ∀ n : Fin 16,
      (s.config.reflexes[n]).enabled = true → (s.config.reflexes[n]).input = i → (s.config.reflexes[n]).edge ≠ x.edge) :
    s.takeEdge atOnce i x.edge first = (s.enterLog (s.recordOf i x first)).1 := by
  rw [takeEdge, if_pos selected, ← edgeRecord_of_stamp]
  dsimp only
  split
  · rename_i acts
    obtain ⟨member, base⟩ := Bool.and_eq_true_iff.1 acts
    have onCluster : (s.valid && first.cluster.isSome) = true := by
      rw [edgeStamp_eq] at base
      cases clustered : s.valid && first.cluster.isSome with
      | true => rfl
      | false => simp [clustered] at base
    refine runReflexes_of_unnamed atOnce _ fun n => ?_
    rw [config, cfg_enterLog]
    exact unnamed (of_decide_eq_true member) onCluster n
  · rfl

end

/-- Settles O20: the filter is requalified by `State.qualify_of_reached`, and a selected edge makes its record by
`State.takeEdge_of_unnamed`. -/
theorem qualifiedEdge : Obligations.QualifiedEdge := by
  intro s i f first filters sampled reached level edge qualified stamp onCluster
  have took : exec (.edgeQualified (.whole i)) s = .next ((s.requalified f i).takeEdge true i (f[i]).edge first) :=
    congrArg _ (State.qualify_of_reached true filters sampled reached)
  have direction : edge = (f[i]).edge := (f[i]).edge_eq
  rw [took, direction]
  refine ⟨fun unselected => ?_, fun selected unnamed => ⟨_, rfl, ?_⟩⟩
  · exact congrArg _ (State.takeEdge_of_unselected (s := s.requalified f i) true first unselected)
  · rw [State.takeEdge_of_unnamed (s := s.requalified f i) true selected unnamed]
    exact (s.requalified f i).enterLog_logs ((s.requalified f i).recordOf i (f[i]) first)

end Sys2Proof.Machine
end

section
/-! PROOFS. The log record and the report record byte by byte (R188, logs 16, 23 and 24), and SNAPSHOT (R159). -/

namespace Sys2Proof.Machine

/-! ### Bytes by their fields -/

theorem logFlags_eq (station : Station) (remote untimed synced : Bool) :
    inBits 0 station ||| flagBit 4 remote ||| flagBit 5 untimed ||| flagBit 6 synced
      = .ofNat 8 (station.val + 16 * (if remote then 1 else 0) + 32 * (if untimed then 1 else 0) + 64 * (if synced then 1 else 0)) := by
  revert station remote untimed synced
  decide

theorem channelByte_eq (channel : Channel) (edge : LogEdge) :
    inBits 0 channel.code ||| inBits 4 edge.code = .ofNat 8 (channel.code + 16 * edge.code) := by
  cases channel with
  | soft => cases edge <;> rfl
  | input i =>
    revert i
    cases edge <;> decide

theorem firedByte_eq (line : Fin 8) (kind : ActionKind) (repeats ended : Bool) :
    inBits 0 line ||| inBits 3 kind.code ||| flagBit 5 repeats ||| flagBit 6 ended
      = .ofNat 8 (line.val + 8 * kind.code + 32 * (if repeats then 1 else 0) + 64 * (if ended then 1 else 0)) := by
  revert line repeats ended
  cases kind <;> decide

theorem reflexKindByte_eq (kind : FrameKind) : byteOf kind.code ||| flagBit 7 true = .ofNat 8 (kind.code + 128) := by
  cases kind <;> rfl

theorem idBytes_eq (id : ActionId) : idBytes id = .ofNat 8 id.origin.val :: halfBytes id.serial := rfl

/-! ### Records -/

/-- The ten bytes of a log record (R188). -/
theorem LogRecord.bytes_eq (r : LogRecord) : r.bytes = halfBytes r.sequence
    ++ [.ofNat 8 (r.body.station.val + 16 * (if r.body.remote.isSome then 1 else 0)
          + 32 * (if decide (r.body.base = .localTicks) then 1 else 0) + 64 * (if r.body.synced then 1 else 0)),
        .ofNat 8 (r.body.channel.code + 16 * r.body.edge.code)]
    ++ timeBytes r.body.stamp ++ halfBytes (r.body.remote.getD 0) := by
  rw [bytes, logFlags_eq, channelByte_eq]

/-- The sixteen bytes of a report record: ten of them its detail, filled with 0 (R188). -/
theorem Report.bytes_eq (r : Report) : r.bytes = [byteOf r.detail.code, .ofNat 8 (if r.unsynced then 1 else 0)] ++ timeBytes r.stamp
    ++ r.detail.bytes ++ List.replicate (10 - r.detail.bytes.length) 0 := by
  have rest : 16 - ([byteOf r.detail.code, .ofNat 8 (if r.unsynced then 1 else 0)] ++ timeBytes r.stamp ++ r.detail.bytes).length
      = 10 - r.detail.bytes.length := by
    have stamp : (timeBytes r.stamp).length = 4 := rfl
    simp only [List.length_append, List.length_cons, List.length_nil, stamp]
    omega
  rw [bytes, padTo, freshByte_eq, rest]

/-- The detail that names a frame: bit 7 of its first byte tells a reflex entry (R188). -/
theorem frameDetailBytes_eq (kind : FrameKind) (d : FrameDetail) : frameDetailBytes kind d =
    match d with
    | .none => [.ofNat 8 kind.code]
    | .action id => .ofNat 8 kind.code :: idBytes id
    | .reflex entry sequence => [.ofNat 8 (kind.code + 128), .ofNat 8 entry.val] ++ halfBytes (sequence.getD 0) := by
  cases d with
  | none => rfl
  | action id => rfl
  | reflex entry sequence =>
    rw [frameDetailBytes, reflexKindByte_eq]
    rfl

/-- The data of READ_LOG: how many records were removed, and each of them (R177, R186). -/
theorem logData_take {layout : LogRecord → List Byte} (records : ∀ r : LogRecord, r.bytes = layout r) (log : List LogRecord) (n : Nat) :
    logData (log.take n) = .ofNat 8 (min n log.length) :: (log.take n).flatMap layout := by
  rw [logData, List.length_take, List.flatMap_congr fun r _ => records r]
  rfl

theorem reportData_take {layout : Report → List Byte} (reports : ∀ r : Report, r.bytes = layout r) (queue : List Report) (n : Nat) :
    reportData (queue.take n) = .ofNat 8 (min n queue.length) :: (queue.take n).flatMap layout := by
  rw [reportData, List.length_take, List.flatMap_congr fun r _ => reports r]
  rfl

/-! ### SNAPSHOT -/

section

variable {s : State}

/-- SNAPSHOT is the arrival of a soft record, and its answer (R159). -/
theorem State.runSnapshot_eq (allowed : s.active = true ∨ s.member.state = .stopped) : s.runSnapshot =
    (s.enterLog s.softRecord).1.answer .snapshot .ok (snapshotData (s.enterLog s.softRecord).2) := by
  have taken : Command.allowedIn .snapshot s.member.state = true := by
    rcases allowed with active | stopped
    · rcases active_cases active with h | ⟨_, h | h⟩ <;> simp [Command.allowedIn, h]
    · simp [Command.allowedIn, stopped]
  rw [runSnapshot, guarded_of_allowed _ taken]

/-- A record that was discarded has no sequence to return (R186). -/
theorem snapshotData_none : snapshotData none = [0x00, 0x00, 0x00] := by decide

/-- The answer to a command that has changed the capture unit, the reports and ATTN. -/
theorem State.answer_after {u : State} {cap : CaptureUnit} {reports : List Report} (c : Command) (code : RespCode) (data : List Byte)
    (after : u = (s.withCap cap).withPort { s.port with reports := reports, attn := u.port.attn }) :
    u.answer c code data = (s.withCap cap).withPort { s.port with
      reports := reports
      attn := u.port.attn
      response := some { command := c.code, code := code, data := data }
      work := .idle } := by
  generalize u.port.attn = attn at after ⊢
  rw [after]
  rfl

end

end Sys2Proof.Machine
end

section
/-! PROOFS. READ_LOG, READ_REPORTS and SNAPSHOT (R155–R157, R159, R177, R182) by the layouts of their data. -/

namespace Sys2Proof.Machine

/-- Settles O46: each command by what it does to the log or to the reports, the data by the layouts of a log record and of a report
record, whose details are taken kind by kind. -/
theorem logAndReportCommands : Obligations.LogAndReportCommands := by
  unfold Obligations.LogAndReportCommands
  intro byte flag half word recorded state cause peer named framed detailed reported
  have halves (h : Half) : halfBytes h = half h := halfBytes_eq h
  have words (w : BitVec 32) : timeBytes w = word w := timeBytes_eq w
  have ids (id : ActionId) : idBytes id = named id := by rw [idBytes_eq, halves]
  have records (r : LogRecord) : r.bytes = recorded r := by
    rw [r.bytes_eq, words, halves, halves]
    rcases r with ⟨_, _, channel, edge, _⟩
    cases channel <;> cases edge <;> rfl
  have frames (kind : FrameKind) (d : FrameDetail) : frameDetailBytes kind d = framed kind d := by
    rw [frameDetailBytes_eq]
    cases d with
    | none => cases kind <;> rfl
    | action id =>
      dsimp only
      rw [ids]
      cases kind <;> rfl
    | reflex entry sequence =>
      dsimp only
      rw [halves]
      cases kind <;> rfl
  have states (x : StationState) : byteOf x.code = state x := by cases x <;> rfl
  have causes (x : Cause) : byteOf x.code = cause x := by cases x <;> rfl
  have peers (x : PeerState) : byteOf x.code = peer x := by cases x <;> rfl
  have details (d : ReportDetail) : (byteOf d.code, d.bytes) = detailed d := by
    cases d with
    | state old new why =>
      rw [ReportDetail.bytes, states, states, causes]
      rfl
    | peer station old new offset =>
      rw [ReportDetail.bytes, peers, peers, words, freshByte_eq]
      rfl
    | alone value =>
      rw [ReportDetail.bytes, freshByte_eq]
      rfl
    | late id lateness skipped =>
      rw [ReportDetail.bytes, ids, words, halves]
      rfl
    | dropped id lateness =>
      rw [ReportDetail.bytes, ids, words]
      simp only [List.append_assoc]
      rfl
    | fired id line kind due rep =>
      rw [ReportDetail.bytes, ids, words, firedByte_eq]
      simp only [List.append_assoc]
      cases kind <;> cases rep <;> rfl
    | refused id station reason =>
      rw [ReportDetail.bytes, ids]
      rfl
    | txAbandoned kind d | notSent kind d =>
      rw [ReportDetail.bytes, frames]
      rfl
    | flushed removed why =>
      rw [ReportDetail.bytes, causes]
      rfl
    | line condition => cases condition <;> rfl
    | lineErrors count =>
      rw [ReportDetail.bytes, halves]
      rfl
    | logOverflow policy discarded =>
      rw [ReportDetail.bytes, halves]
      cases policy <;> rfl
    | overflow lost => rfl
  have reports (r : Report) : r.bytes = reported r := by
    rw [r.bytes_eq, words]
    dsimp only [reported]
    rw [← details]
  have numbers (number : Option Half) : snapshotData number = byte (flag number.isSome) :: half (number.getD 0) := by
    rw [snapshotData, freshByte_eq, halves]
    rfl
  refine ⟨fun s n count least most work => ?readLog, fun s n count least most work => ?readReports,
    fun s n least most work allowed => ?snapshot⟩
  case readLog =>
    have took : exec .readLog s = .next (s.runReadLog count) := s.exec_row (.readLog count) n work least most
    rw [took]
    refine ⟨fun bad => ?_, fun one eight => ?_⟩
    · rw [State.runReadLog_of_bad (countOk_eq_false bad)]
      rfl
    · rw [State.runReadLog_of_good ((countOk_iff count).2 ⟨one, eight⟩), logData_take records]
      refine ⟨_, rfl, rfl, fun empty => ?_, fun held => ?_⟩
      · show (s.cap.episode && s.cap.log.isEmpty) = s.cap.episode
        rw [empty, List.isEmpty_nil, Bool.and_true]
      · show (s.cap.episode && s.cap.log.isEmpty) = false
        rw [List.isEmpty_eq_false_iff.2 held, Bool.and_false]
  case readReports =>
    have took : exec .readReports s = .next (s.runReadReports count) := s.exec_row (.readReports count) n work least most
    rw [took]
    refine ⟨fun bad => ?_, fun one eight => ?_⟩
    · rw [State.runReadReports_of_bad (countOk_eq_false bad)]
      rfl
    · rw [State.runReadReports_of_good ((countOk_iff count).2 ⟨one, eight⟩), reportData_take reports]
      exact ⟨_, rfl, rfl⟩
  case snapshot =>
    have took : exec .snapshot s = .next s.runSnapshot := s.exec_row .snapshot n work least most
    refine ⟨_, took, ?_⟩
    obtain ⟨room, stop, wrap⟩ := s.enterLog_logs s.softRecord
    rw [State.runSnapshot_eq allowed]
    refine ⟨fun free => ?_, fun full policy => ?_, fun oldest rest log full policy => ?_⟩
    · rw [State.answer_after _ _ _ (room free), State.enterLog_room _ free, numbers]
      rfl
    · rw [State.answer_after _ _ _ (stop full policy), (State.enterLog_full _ full).1 policy, snapshotData_none]
      rfl
    · rw [State.answer_after _ _ _ (wrap oldest rest log full policy), (State.enterLog_full _ full).2 policy, numbers]
      rfl

end Sys2Proof.Machine
end

section
/-! PROOFS. The report queue (R181) and ATTN (R183) in every step: both are records of the station, so that the few operations that change
the records decide. -/

namespace Sys2Proof.Machine

/-! ### The report queue -/

theorem Report.isOverflow_eq_false_iff (r : Report) : r.isOverflow = false ↔ ∀ lost, r.detail ≠ .overflow lost := by
  unfold isOverflow
  cases r.detail <;> simp

/-- An arrival at a queue whose last report is OVERFLOW is counted into it, up to 255 (R181). -/
theorem arrive_overflow (queue : List Report) {last : Report} {lost : Nat} (r : Report) (overflow : last.detail = .overflow lost) :
    arrive (queue ++ [last]) r = queue ++ [{ last with detail := .overflow (min (lost + 1) 255) }] := by
  obtain ⟨detail, stamp, unsynced⟩ := last
  obtain rfl : detail = .overflow lost := overflow
  simp [arrive, Config.lostLimit]

/-- The report that would be the 32nd becomes an OVERFLOW report (R181). -/
theorem arrive_overflows {queue : List Report} (r : Report) (held : queue.length = 31)
    (last : ∀ x ∈ queue.getLast?, ∀ lost, x.detail ≠ .overflow lost) : arrive queue r = queue ++ [{ r with detail := .overflow 1 }] := by
  rcases arrive_cases queue r with ⟨kept, lost, st, u, ends, _⟩ | ⟨_, ⟨room, _⟩ | ⟨_, overflows⟩ | ⟨full, _⟩⟩
  · exact absurd rfl (last ⟨.overflow lost, st, u⟩ (by simp [ends]) lost)
  · omega
  · exact overflows
  · omega

/-- What R181 says of a report queue. -/
structure ReportsFit (queue : List Report) : Prop where
  bound : queue.length ≤ 32
  overflowLast : ∀ r ∈ queue.dropLast, r.isOverflow = false

theorem State.reportsOk_iff (s : State) : s.ReportsOk ↔ ReportsFit s.port.reports :=
  ⟨fun ⟨bound, overflowLast⟩ => ⟨bound, overflowLast⟩, fun ⟨bound, overflowLast⟩ => ⟨bound, overflowLast⟩⟩

namespace ReportsFit

variable {queue : List Report} (fits : ReportsFit queue)

include fits

/-- A queue whose last report is not OVERFLOW holds none. -/
theorem no_overflow (last : ∀ x ∈ queue.getLast?, ∀ lost, x.detail ≠ .overflow lost) : ∀ r ∈ queue, r.isOverflow = false := by
  rcases List.eq_nil_or_concat queue with rfl | ⟨front, newest, rfl⟩
  · simp
  · have front := fits.overflowLast
    rw [List.concat_eq_append] at *
    rw [List.dropLast_concat] at front
    rw [List.forall_mem_append, List.forall_mem_singleton, Report.isOverflow_eq_false_iff]
    exact ⟨front, last newest List.getLast?_concat⟩

/-- The three outcomes of an arrival: the OVERFLOW report stays last, a report is appended to others than OVERFLOW, or the full queue
stays (R181). -/
theorem arrive (r : Report) : ReportsFit (arrive queue r) := by
  have bound := fits.bound
  rcases arrive_cases queue r with ⟨kept, lost, st, u, rfl, counted⟩ | ⟨last, ⟨room, appended⟩ | ⟨held, overflows⟩ | ⟨_, full⟩⟩
  · have front := fits.overflowLast
    rw [List.dropLast_concat] at front
    rw [counted]
    exact ⟨by simpa using bound, by rwa [List.dropLast_concat]⟩
  · rw [appended]
    exact ⟨by rw [List.length_append, List.length_singleton]; omega, by rw [List.dropLast_concat]; exact fits.no_overflow last⟩
  · rw [overflows]
    exact ⟨by rw [List.length_append, List.length_singleton]; omega, by rw [List.dropLast_concat]; exact fits.no_overflow last⟩
  · rwa [full]

/-- READ_REPORTS takes the oldest reports (R182). -/
theorem drop (n : Nat) : ReportsFit (queue.drop n) where
  bound := by
    have := fits.bound
    rw [List.length_drop]
    omega
  overflowLast r held := by
    rw [List.dropLast_drop_eq_drop_dropLast] at held
    exact fits.overflowLast r (List.mem_of_mem_drop held)

end ReportsFit

/-! ### What an arrival at the capture log keeps -/

namespace State

variable {s : State}

/-- What a report keeps that changes nothing but the log's overflow flag before it, a loss keeps (R156). -/
theorem logLoss_keeps {P : State → Prop} (holds : P s)
    (report : ∀ d, P ((s.withCap { s.cap with episode := true }).report d)) (discarded : Option Half) : P (s.logLoss discarded) := by
  unfold logLoss
  split
  · exact holds
  · exact report _

/-- What a record that is appended keeps, and a loss, an arrival at the log keeps (R155, R156). -/
theorem enterLog_keeps {P : State → Prop} (body : LogBody) (holds : P s) (append : ∀ kept, P (s.appendLog kept body))
    (loss : ∀ u discarded, P u → P (u.logLoss discarded)) : P (s.enterLog body).1 := by
  by_cases room : s.cap.log.length < 64
  · rw [enterLog_room body room]
    exact append _
  · have full := enterLog_full body (Nat.not_lt.1 room)
    cases policy : s.config.logPolicy with
    | stop =>
      rw [full.1 policy]
      exact loss _ _ holds
    | wrap =>
      rw [full.2 policy]
      exact loss _ _ (append _)

/-- READ_LOG answers BAD_PARAM, or takes records of the log and lets ATTN follow (R157, R183). -/
theorem runReadLog_cases (count : Byte) : (∃ code data, s.runReadLog count = s.answer (.readLog count) code data)
    ∨ ∃ cap code data, s.runReadLog count = (s.withCap cap).refreshAttn.answer (.readLog count) code data := by
  cases good : countOk count with
  | false => exact .inl ⟨_, _, runReadLog_of_bad good⟩
  | true => exact .inr ⟨_, _, _, runReadLog_of_good good⟩

/-! ### The reports and ATTN in every step -/

/-- An arrival at the queue keeps it so, and the log and the commands reach it by reports alone, READ_REPORTS apart. -/
theorem reportsOk_recordInvariant : RecordInvariant State.ReportsOk where
  of_records kept ok := by
    simp only [records, Prod.mk.injEq] at kept
    obtain ⟨_, _, reports, _⟩ := kept
    rw [ReportsOk, reports]
    exact ok
  queueReport {s} ok r := (reportsOk_iff _).2 ((s.reportsOk_iff.1 ok).arrive r)
  enterLog {s} ok body := enterLog_keeps body ok (fun _ => ok) fun u discarded ok =>
    logLoss_keeps ok (fun _ => (reportsOk_iff _).2 ((u.reportsOk_iff.1 ok).arrive _)) discarded
  runReadLog {s} ok count := by
    rcases runReadLog_cases (s := s) count with ⟨code, data, bad⟩ | ⟨cap, code, data, good⟩
    · rw [bad]
      exact ok
    · rw [good]
      exact ok
  runReadReports {s} ok count := by
    cases good : countOk count with
    | false =>
      rw [runReadReports_of_bad good]
      exact ok
    | true =>
      rw [runReadReports_of_good good]
      exact (reportsOk_iff _).2 ((s.reportsOk_iff.1 ok).drop count.toNat)
  startFromReady {s} ok c := (reportsOk_iff _).2 ((s.reportsOk_iff.1 ok).arrive _)
  reset := ⟨Nat.zero_le _, fun _ held => by cases held⟩

/-- Where a report is queued or ATTN is refreshed, it follows its condition whatever it was before (R183). -/
theorem attnOk_recordInvariant : RecordInvariant State.AttnOk where
  of_records kept ok := by
    simp only [records, Prod.mk.injEq] at kept
    obtain ⟨log, _, reports, attn, cfg⟩ := kept
    rw [AttnOk, attnDue, log, reports, attn, cfg]
    exact ok
  queueReport _ _ := rfl
  enterLog ok body := enterLog_keeps body ok (fun _ => rfl) fun _ discarded ok => logLoss_keeps ok (fun _ => rfl) discarded
  runReadLog {s} ok count := by
    rcases runReadLog_cases (s := s) count with ⟨code, data, bad⟩ | ⟨cap, code, data, good⟩
    · rw [bad]
      exact ok
    · rw [good]
      rfl
  runReadReports {s} ok count := by
    cases good : countOk count with
    | false =>
      rw [runReadReports_of_bad good]
      exact ok
    | true =>
      rw [runReadReports_of_good good]
      rfl
  startFromReady _ _ := rfl
  reset := rfl

/-- The two conditions of R183. -/
theorem attnDue_iff (s : State) : s.attnDue = true ↔ s.port.reports ≠ [] ∨ ∃ c, s.cfg = some c ∧ c.threshold ≤ s.cap.log.length := by
  unfold attnDue
  cases s.cfg <;> simp

end State

/-- Settles O50: the arrivals by the outcomes of `arrive`; they keep the queue so, READ_REPORTS keeps it, and every other operation
leaves it. -/
theorem reportsKept : Obligations.ReportsKept := by
  have notOverflow {queue : List Report} (last : ∀ x ∈ queue.getLast?, x.isOverflow = false) :
      ∀ x ∈ queue.getLast?, ∀ lost, x.detail ≠ .overflow lost :=
    fun x held => x.isOverflow_eq_false_iff.1 (last x held)
  exact ⟨fun queue _ _ r overflow => arrive_overflow queue r overflow,
    fun _ r last => ⟨fun held => arrive_overflows r held (notOverflow last),
      fun room => arrive_room r (by omega) (notOverflow last)⟩,
    State.reportsOk_recordInvariant.step⟩

/-- Settles O53: ATTN follows its condition in every step. -/
theorem attnKept : Obligations.AttnKept := by
  intro s t ok took
  have follows : t.port.attn = t.attnDue := State.attnOk_recordInvariant.step s t ok took
  rw [follows, t.attnDue_iff]

end Sys2Proof.Machine
end

section
/-! PROOFS. The transactions of the service port (R168–R171): the levels of its bytes, the check byte, and SEL falling and rising. -/

namespace Sys2Proof.Machine

/-! ### Levels and bytes -/

theorem serialBits_eq (b : Byte) : serialBits b = [b.getLsbD 7, b.getLsbD 6, b.getLsbD 5, b.getLsbD 4, b.getLsbD 3, b.getLsbD 2,
    b.getLsbD 1, b.getLsbD 0] := rfl

/-- The first eight levels make their byte. -/
theorem serialByte_serialBits (b : Byte) (rest : List Bool) : serialByte (serialBits b ++ rest) = b := by
  have byte : serialByte (serialBits b ++ rest) = 0 ||| flagBit (7 : Fin 8) (b.getLsbD 7) ||| flagBit (6 : Fin 8) (b.getLsbD 6)
      ||| flagBit (5 : Fin 8) (b.getLsbD 5) ||| flagBit (4 : Fin 8) (b.getLsbD 4) ||| flagBit (3 : Fin 8) (b.getLsbD 3)
      ||| flagBit (2 : Fin 8) (b.getLsbD 2) ||| flagBit (1 : Fin 8) (b.getLsbD 1) ||| flagBit (0 : Fin 8) (b.getLsbD 0) := rfl
  have each : ∀ j : Fin 8, (serialByte (serialBits b ++ rest)).getLsbD j = b.getLsbD j := by
    intro j
    rw [byte]
    simp only [BitVec.getLsbD_or, getLsbD_flagBit]
    fin_cases j <;> simp
  exact BitVec.eq_of_getLsbD_eq fun j within => each ⟨j, within⟩

/-- Eight levels are a byte, and the bytes after them are those of the levels after them. -/
theorem receivedBytes_serialBits (b : Byte) (rest : List Bool) : receivedBytes (serialBits b ++ rest) = b :: receivedBytes rest := by
  have count : (serialBits b ++ rest).length / 8 = rest.length / 8 + 1 := by
    rw [List.length_append, serialBits_eq]
    simp only [List.length_cons, List.length_nil]
    omega
  unfold receivedBytes
  rw [count, List.range_succ_eq_map, List.map_cons, List.map_map, Nat.mul_zero, List.drop_zero, serialByte_serialBits]
  refine congrArg (b :: ·) (List.map_congr_left fun n _ => ?_)
  show serialByte ((serialBits b ++ rest).drop (8 * n + 8)) = _
  rw [Nat.add_comm, ← List.drop_drop]
  rfl

/-- The whole bytes are received, and a byte cut off is none (R168, R171). -/
theorem receivedBytes_flatMap (bytes : List Byte) {cut : List Bool} (short : cut.length < 8) :
    receivedBytes (bytes.flatMap serialBits ++ cut) = bytes := by
  induction bytes with
  | nil =>
    show receivedBytes cut = []
    rw [receivedBytes, Nat.div_eq_of_lt short]
    rfl
  | cons b rest ih => rw [List.flatMap_cons, List.append_assoc, receivedBytes_serialBits, ih]

/-- A byte of the response goes out most significant bit first (R168). -/
theorem Transaction.sdoLevel_of_byte {t : Transaction} {clock : Nat} {b : Byte} (byte : t.sdo[clock / 8]? = some b) :
    t.sdoLevel clock = b.getLsbD (7 - clock % 8) := by
  have within : clock % 8 < 8 := Nat.mod_lt _ (by omega)
  rw [sdoLevel, List.getD_eq_getElem?_getD, byte, Option.getD_some, BitVec.getMsbD_eq_getLsbD, decide_eq_true within, Bool.true_and]

/-- After the response 00h goes out (R168). -/
theorem Transaction.sdoLevel_after {t : Transaction} {clock : Nat} (after : t.sdo.length ≤ clock / 8) : t.sdoLevel clock = false := by
  rw [sdoLevel, List.getD_eq_default _ _ after]
  simp

/-! ### The check byte -/

theorem byteSum_eq_sum (l : List Byte) : byteSum l = l.sum := List.sum_eq_foldl.symm

/-- The check byte makes the sum of all 0 (R168). -/
theorem withCheck_eq (l : List Byte) : ∃ check, withCheck l = l ++ [check] ∧ l.sum + check = 0 :=
  ⟨0 - byteSum l, rfl, by rw [byteSum_eq_sum, zero_sub, add_neg_cancel]⟩

/-- The bytes of a response, with the check byte that makes the sum of all 0 (R168, R186). -/
theorem Response.bytes_eq (r : Response) : ∃ check : Byte,
    r.command + r.code.code + BitVec.ofNat 8 r.data.length + r.data.sum + check = 0
    ∧ r.bytes = r.command :: r.code.code :: BitVec.ofNat 8 r.data.length :: (r.data ++ [check]) := by
  obtain ⟨check, bytes, sum⟩ := withCheck_eq ([r.command, r.code.code, BitVec.ofNat 8 r.data.length] ++ r.data)
  refine ⟨check, ?_, bytes⟩
  simpa only [List.sum_append, List.sum_cons, List.sum_nil, add_zero, add_assoc] using sum

/-! ### SEL falls and rises -/

section

variable {s : State}

theorem exec_transactionBegin_busy (none : s.port.transaction = none) (busy : s.port.work ≠ .idle) :
    exec .transactionBegin s = .next (s.withPort { s.port with transaction := some { busy := true, sdo := Response.busy.bytes } }) := by
  have flag : s.busy = true := decide_eq_true busy
  simp only [exec, execTransactionBegin, none, State.beginTransaction, flag, if_true]

theorem exec_transactionBegin_idle {r : Response} (none : s.port.transaction = none) (idle : s.port.work = .idle)
    (pending : s.port.response = some r) : exec .transactionBegin s = .next (s.withPort { s.port with
      transaction := some { busy := false, sdo := r.bytes }, response := .none }) := by
  have flag : s.busy = false := decide_eq_false (not_not_intro idle)
  simp [exec, execTransactionBegin, none, State.beginTransaction, flag, pending]

theorem exec_transactionEnd {tr : Transaction} (begun : s.port.transaction = some tr) (bits cut : List Bool) :
    exec (.transactionEnd bits cut) s = .next (s.endTransaction tr (receivedBytes (bits ++ cut))) := by
  simp only [exec, execTransactionEnd, begun]

end

/-- Settles O35: the rows by their equations, the bytes of a response by `Response.bytes_eq`, the bit order by `receivedBytes_flatMap` and
`Transaction.sdoLevel_of_byte`. -/
theorem transactions : Obligations.Transactions := by
  refine ⟨fun s => ⟨fun none => ⟨fun busy => ?busy, fun idle r pending => ?idle⟩, fun tr bits cut begun => ?ends⟩,
    fun bytes cut short => receivedBytes_flatMap bytes short, fun tr clock => ⟨fun b byte => Transaction.sdoLevel_of_byte byte,
      Transaction.sdoLevel_after⟩⟩
  case busy =>
    rw [exec_transactionBegin_busy none busy]
    rfl
  case idle =>
    intro code
    have named : code = r.code.code := by
      dsimp only [code]
      cases r.code <;> rfl
    obtain ⟨check, sum, bytes⟩ := r.bytes_eq
    refine ⟨check, named ▸ sum, ?_⟩
    rw [exec_transactionBegin_idle none idle pending, bytes, named]
  case ends =>
    rw [exec_transactionEnd begun]
    unfold State.endTransaction
    refine ⟨fun busy => ?_, fun c free judged => ?_, fun r free judged => ?_⟩
    · rw [busy]
      rfl
    · rw [free, judged]
      rfl
    · rw [free, judged]
      rfl

end Sys2Proof.Machine
end

section
/-! PROOFS. The judgement of what a transaction has received (R168, R171), and the packet of every command (R186). -/

namespace Sys2Proof.Machine

/-! ### The checks on a packet -/

/-- What becomes of a whole packet whose check byte is right, by the command of its code and parameters (R171). -/
def judgedBy (code : Byte) (command : Option (Option Command)) : Except Response Command :=
  command.elim (.error { command := code, code := .badCommand, data := [] }) fun taken =>
    taken.elim (.error { command := code, code := .badLength, data := [] }) .ok

/-- A packet that is not whole is refused, whatever its bytes (R171). -/
theorem judgeEnvelope_short {received : List Byte}
    (short : received.length < 3 ∨ received.length < (byteAt received 1).toNat + 3) :
    judgeEnvelope received = .error { command := byteAt received 0, code := .badLength, data := [] } := by
  unfold judgeEnvelope
  dsimp only
  split
  · rfl
  · rw [if_pos (by omega)]

/-- A whole packet is judged by its check byte, and then by its code and its parameters, whatever follows it (R168, R171). -/
theorem judgeEnvelope_packet (code check : Byte) {params : List Byte} (rest : List Byte) (short : params.length < 256) :
    judgeEnvelope ([code, BitVec.ofNat 8 params.length] ++ params ++ [check] ++ rest) =
      if code + BitVec.ofNat 8 params.length + params.sum + check = 0 then judgedBy code (commandOf code params)
      else .error { command := code, code := .badCheck, data := [] } := by
  generalize whole : [code, BitVec.ofNat 8 params.length] ++ params ++ [check] = packet
  have front : packet ++ rest = code :: BitVec.ofNat 8 params.length :: (params ++ ([check] ++ rest)) := by simp [← whole]
  have length : (byteAt (packet ++ rest) 1).toNat = params.length := by
    rw [front]
    exact (BitVec.toNat_ofNat ..).trans (Nat.mod_eq_of_lt short)
  have size : packet.length = params.length + 3 := by
    rw [← whole]
    simp only [List.length_append, List.length_cons, List.length_nil]
    omega
  have sum : byteSum packet = code + BitVec.ofNat 8 params.length + params.sum + check := by
    simp only [← whole, byteSum_eq_sum, List.sum_append, List.sum_cons, List.sum_nil, add_zero, add_assoc]
  have parameters : ((packet ++ rest).drop 2).take params.length = params := by
    rw [front]
    exact List.take_left
  have first : byteAt (packet ++ rest) 0 = code := by
    rw [front]
    rfl
  unfold judgeEnvelope
  dsimp only
  rw [length, ← size, List.take_left, sum, size, parameters, first, List.length_append, size, if_neg (by omega), if_neg (by omega),
    ite_not]
  refine if_congr Iff.rfl ?_ rfl
  cases commandOf code params with
  | none => rfl
  | some taken => cases taken <;> rfl

/-- A packet with the check byte that its other bytes call for (R168). -/
theorem judgeEnvelope_withCheck (code : Byte) {params : List Byte} (rest : List Byte) (short : params.length < 256) :
    judgeEnvelope (withCheck ([code, BitVec.ofNat 8 params.length] ++ params) ++ rest) = judgedBy code (commandOf code params) := by
  obtain ⟨check, bytes, sum⟩ := withCheck_eq ([code, BitVec.ofNat 8 params.length] ++ params)
  rw [bytes, judgeEnvelope_packet code check rest short, if_pos]
  simpa only [List.sum_append, List.sum_cons, List.sum_nil, add_zero, add_assoc] using sum

/-! ### The commands by their codes -/

theorem commandOf_post (params : List Byte) : commandOf 0x10 params = if params.length < 10 then some none
    else some (if params.length = actionLength (byteAt params 9) + 1 then some (.post (byteAt params 0) (actionFieldsAt params 1))
      else none) := rfl

/-- The codes of the commands (R186). -/
theorem commandOf_eq_none_iff (code : Byte) (params : List Byte) : commandOf code params = none ↔
    code ∉ [0x00, 0x01, 0x02, 0x03, 0x04, 0x10, 0x11, 0x12, 0x13, 0x20, 0x21, 0x22, 0x23, 0x24] := by
  have toNat (n : Nat) (within : n < 256) : code.toNat = n ↔ code = BitVec.ofNat 8 n := by
    rw [← BitVec.toNat_inj, BitVec.toNat_ofNat, Nat.mod_eq_of_lt within]
  constructor
  · intro unknown known
    by_cases post : code = 0x10
    · rw [post, commandOf_post] at unknown
      split at unknown <;> cases unknown
    · simp only [List.mem_cons, List.not_mem_nil, post, or_false, false_or] at known
      rcases known with rfl | rfl | rfl | rfl | rfl | rfl | rfl | rfl | rfl | rfl | rfl | rfl | rfl <;> cases unknown
  · intro unknown
    simp only [List.mem_cons, List.not_mem_nil, or_false, not_or] at unknown
    unfold commandOf
    dsimp only
    split
    case h_15 => rfl
    all_goals
      rename_i named
      exact absurd ((toNat _ (by omega)).1 named) (by tauto)

/-- The commands whose parameters have one length take no other (R186). -/
theorem commandOf_of_wrong_length {code : Byte} {length : Nat} {params : List Byte}
    (fixed : (code, length) ∈ [((0x00 : Byte), 0), (0x01, 0), (0x02, 172), (0x03, 0), (0x04, 0), (0x11, 10), (0x12, 5), (0x13, 3),
      (0x20, 1), (0x21, 1), (0x22, 0), (0x23, 0), (0x24, 2)]) (wrong : params.length ≠ length) : commandOf code params = some none := by
  simp only [List.mem_cons, List.not_mem_nil, or_false, Prod.mk.injEq] at fixed
  rcases fixed with ⟨rfl, rfl⟩ | ⟨rfl, rfl⟩ | ⟨rfl, rfl⟩ | ⟨rfl, rfl⟩ | ⟨rfl, rfl⟩ | ⟨rfl, rfl⟩ | ⟨rfl, rfl⟩ | ⟨rfl, rfl⟩ | ⟨rfl, rfl⟩
    | ⟨rfl, rfl⟩ | ⟨rfl, rfl⟩ | ⟨rfl, rfl⟩ | ⟨rfl, rfl⟩ <;>
  exact congrArg some (if_neg wrong)

/-! ### The parameters -/

section

variable (scope : Byte) (selector serial : Half)

theorem commandOf_amend (new : Repeat) :
    commandOf 0x11 ([scope] ++ halfBytes selector ++ halfBytes serial ++ timeBytes new.period ++ [new.count])
      = some (some (.amend scope selector serial new)) :=
  congr (congrArg₂ (fun selector serial period => some (some (Command.amend scope selector serial { new with period := period })))
    (half_of_bytes selector) (half_of_bytes serial)) (time_of_bytes new.period)

theorem commandOf_cancel : commandOf 0x12 ([scope] ++ halfBytes selector ++ halfBytes serial)
    = some (some (.cancel scope selector serial)) :=
  congrArg₂ (fun selector serial => some (some (Command.cancel scope selector serial))) (half_of_bytes selector) (half_of_bytes serial)

theorem commandOf_find : commandOf 0x13 ([scope] ++ halfBytes serial) = some (some (.find scope serial)) :=
  congrArg (fun serial => some (some (Command.find scope serial))) (half_of_bytes serial)

end

/-! ### POST -/

/-- The control byte of a POST says what that of an ACTION says, and its bit 7 nothing (R186). -/
theorem postControl_read (line : Fin 8) (kind : ActionKind) (notify repeats unused : Bool) :
    let control := BitVec.ofNat 8 (line.val + 8 * kind.code + 32 * notify.toNat + 64 * repeats.toNat + 128 * unused.toNat)
    eighthIn control = line ∧ kindIn control = kind ∧ control.getLsbD 5 = notify ∧ control.getLsbD 6 = repeats := by
  revert line notify repeats unused
  cases kind <;> decide

/-- The parameters of a POST: its scope, and an ACTION's payload under a control byte of the same fields (R175, R186). -/
def postBytes (scope control : Byte) (a : ActionFields) : List Byte :=
  [scope] ++ halfBytes a.selector ++ halfBytes a.serial ++ timeBytes a.due ++ [control]
    ++ (a.width.map halfBytes).getD [] ++ (a.rep.map fun r => timeBytes r.period ++ [r.count]).getD []

section

variable {a : ActionFields} (wellFormed : a.width.isSome = decide (a.kind = .pulse)) {control : Byte} (scope : Byte)

include wellFormed

theorem length_postBytes (kind : kindIn control = a.kind) (repeats : control.getLsbD 6 = a.rep.isSome) :
    (postBytes scope control a).length = actionLength control + 1 := by
  have payload := length_payloadBytes_action 0 wellFormed
  obtain ⟨_, kind', _, repeats'⟩ := controlByte_read a
  rw [actionLength, kind', repeats', ← kind, ← repeats] at payload
  rw [actionLength, ← payload]
  rfl

/-- The fields are read as they stand in the payload of an ACTION, one byte further on (R4, R185, R186). -/
theorem actionFieldsAt_postBytes (line : eighthIn control = a.line) (kind : kindIn control = a.kind)
    (notify : control.getLsbD 5 = a.notify) (repeats : control.getLsbD 6 = a.rep.isSome) :
    actionFieldsAt (postBytes scope control a) 1 = a := by
  refine Eq.trans ?_ (actionFieldsAt_payloadBytes 0 wellFormed)
  obtain ⟨line', kind', notify', repeats'⟩ := controlByte_read a
  have here : byteAt (postBytes scope control a) (1 + 8) = control := rfl
  have there : byteAt (payloadBytes 0 (.action a)) (0 + 8) = controlByte a := rfl
  unfold actionFieldsAt
  simp only [here, there, line, kind, notify, repeats, line', kind', notify', repeats']
  by_cases pulse : a.kind = .pulse
  · simp only [pulse, if_true]
    rfl
  · simp only [pulse, if_false]
    rfl

/-- A POST is read with the fields it was sent with (R175, R186). -/
theorem commandOf_postBytes (line : eighthIn control = a.line) (kind : kindIn control = a.kind)
    (notify : control.getLsbD 5 = a.notify) (repeats : control.getLsbD 6 = a.rep.isSome) :
    commandOf 0x10 (postBytes scope control a) = some (some (.post scope a)) := by
  have length := length_postBytes wellFormed scope kind repeats
  have least : 9 ≤ actionLength control := by
    rw [actionLength]
    omega
  have here : byteAt (postBytes scope control a) 9 = control := rfl
  rw [commandOf_post, if_neg (by omega), here, if_pos length, actionFieldsAt_postBytes wellFormed scope line kind notify repeats]
  rfl

end

/-- A POST of another length than its control byte calls for is of wrong length (R186). -/
theorem commandOf_post_of_wrong_length {params : List Byte} {control : Byte} (here : params[9]? = some control)
    (wrong : params.length ≠ 10 + (if control.toNat / 8 % 4 = 3 then 2 else 0) + (if control.getLsbD 6 then 5 else 0)) :
    commandOf 0x10 params = some none := by
  have read : byteAt params 9 = control := by rw [byteAt, List.getD_eq_getElem?_getD, here, Option.getD_some]
  rw [commandOf_post, read, actionLength]
  simp only [kindIn_eq_pulse_iff]
  split
  · rfl
  · rw [if_neg (by omega)]

/-- Settles O36: the judgement by `judgeEnvelope_packet` and `judgeEnvelope_short`, the packets by `commandOf`, code by code. -/
theorem packetJudged : Obligations.PacketJudged := by
  refine ⟨fun code params rest c short named => ?taken, fun code check params rest short bad => ?check,
    fun code length rest short => judgeEnvelope_short (.inr ?short), judgeEnvelope_short (.inl (by decide)),
    fun code => judgeEnvelope_short (.inl (by simp)), fun code params rest short => ?refused,
    commandOf_eq_none_iff, fun code length params fixed wrong => commandOf_of_wrong_length fixed wrong, ⟨rfl, rfl, rfl, rfl, rfl, rfl⟩,
    fun block length => congrArg some (if_pos length), fun x y => ⟨rfl, rfl, rfl⟩,
    fun scope selector serial new => ⟨commandOf_amend scope selector serial new, commandOf_cancel scope selector serial,
      commandOf_find scope serial⟩, fun scope a unused wellFormed => ?post,
    fun params => ⟨fun short => if_pos short, fun control here wrong => commandOf_post_of_wrong_length here wrong⟩⟩
  case taken =>
    rw [judgeEnvelope_withCheck code rest short, named]
    rfl
  case check => rw [judgeEnvelope_packet code check rest short, if_neg bad]
  case short =>
    show rest.length + 2 < length.toNat + 3
    omega
  case refused =>
    intro packet
    have judged : judgeEnvelope packet = _ := judgeEnvelope_withCheck code rest short
    refine ⟨fun unknown => ?_, fun wrong => ?_⟩
    · rw [judged, unknown]
      rfl
    · rw [judged, wrong]
      rfl
  case post =>
    obtain ⟨line, kind, notify, repeats⟩ := postControl_read a.line a.kind a.notify a.rep.isSome unused
    exact commandOf_postBytes wellFormed scope line kind notify repeats

end Sys2Proof.Machine
end

section
/-! PROOFS. The state check of the commands (R172, R173), and NOP and STATUS (R174, R186, log 23). -/

namespace Sys2Proof.Machine

/-! ### The state check -/

/-- Every command makes the state check before its own part (R172, R173). -/
theorem State.run_of_not_allowed {s : State} {c : Command} (refused : c.allowedIn s.member.state = false) :
    s.run c = s.answer c .badState [] := by
  cases c <;> exact if_neg (Bool.eq_false_iff.1 refused)

/-- Settles O48: the row runs the command, whose state check comes before its own part; the states command by command. -/
theorem badState : Obligations.BadState := by
  refine ⟨fun s c n least most work refused => ?_, fun c state => ?_⟩
  · rw [s.exec_row c n work least most, State.run_of_not_allowed refused]
    rfl
  · cases c with
    | nop | status | find | readLog | readReports | readPeers => exact iff_true_intro rfl
    | configure | start | stop | snapshot | drive => simp [Command.allowedIn, or_assoc]
    | post | amend | cancel => exact decide_eq_true_iff

/-! ### NOP and STATUS -/

theorem statusFlags_eq (alone muted valid : Bool) : flagBit 0 alone ||| flagBit 1 muted ||| flagBit 2 valid
    = .ofNat 8 (alone.toNat + 2 * muted.toNat + 4 * valid.toNat) := by
  revert alone muted valid
  decide

theorem State.round_eq (s : State) : s.round = s.clock.cluster.elim 0 fun now => now >>> s.config.k := by
  unfold round valid now roundOf
  cases s.clock.cluster <;> rfl

/-- The seventeen bytes of STATUS (R174, R186). -/
theorem statusData_eq (s : State) : statusData s =
    [0x12, 0x3A, s.member.number.elim 0x80 fun n => .ofNat 8 n.val, .ofNat 8 s.member.state.code,
      .ofNat 8 (s.member.alone.toNat + 2 * s.line.muted.toNat + 4 * s.valid.toNat)]
    ++ timeBytes s.now ++ timeBytes (s.clock.cluster.elim 0 fun now => now >>> s.config.k)
    ++ [.ofNat 8 s.sched.queue.length, .ofNat 8 s.cont.queue.length, .ofNat 8 s.cap.log.length, .ofNat 8 s.port.reports.length] := by
  have identity : halfBytes Config.identity = [0x12, 0x3A] := by decide
  rw [statusData, identity, statusFlags_eq, s.round_eq]
  cases s.member.number with
  | none => rfl
  | some n =>
    dsimp only
    rw [originByte_eq]
    rfl

/-- Settles O37: every state allows NOP and STATUS, the data of STATUS by `statusData_eq`. -/
theorem nopAndStatus : Obligations.NopAndStatus := by
  refine fun s n least most => ⟨fun work => ?nop, fun work => ?status⟩
  case nop =>
    have row : exec .nop s = .next s.runNop := s.exec_row .nop n work least most
    rw [row, State.runNop, State.guarded_of_allowed _ rfl]
    rfl
  case status =>
    intro station round data
    have row : exec .status s = .next s.runStatus := s.exec_row .status n work least most
    have laidOut : statusData s = data := by
      rw [statusData_eq]
      dsimp only [data, station, round, State.now]
      cases s.member.number <;> cases s.clock.cluster <;> rfl
    rw [row, State.runStatus, State.guarded_of_allowed _ rfl, laidOut]
    rfl

end Sys2Proof.Machine
end

section
/-! PROOFS. The queue of commands: a step takes the command at its front (log 9), and every row answers a next state and leaves the queue
as it finds it, HARDWARE_RESET by the model's choice (log 14). -/

namespace Sys2Proof.Machine

/-! ### What a step takes of the queue -/

theorem step_of_pending_nil {s : State} (empty : s.pending = []) : step s = .next s := by
  unfold step
  rw [empty]

theorem step_of_pending_cons {s : State} {c : Instr} {rest : List Instr} (front : s.pending = c :: rest) :
    step s = exec c (s.withPending rest) := by
  unfold step
  rw [front]

/-- Settles O1: the step of a queue with a front. -/
theorem stepRunsFrontCommand : Obligations.StepRunsFrontCommand := fun _ _ _ => step_of_pending_cons

section

variable (s : State)

/-! ### What leaves the queue: the commands -/

@[simp] theorem State.pending_answer (c : Command) (code : RespCode) (data : List Byte) :
    (s.answer c code data).pending = s.pending := rfl

@[simp] theorem State.pending_sendCommand (c : Command) (p : Payload) : (s.sendCommand c p).pending = s.pending :=
  s.pending_enqueue (.fresh p true none)

/-- The state check of a command leaves the queue to the command's own part (R173). -/
theorem State.pending_guarded {own : State → State} (c : Command) (kept : (own s).pending = s.pending) :
    (s.guarded c own).pending = s.pending := by
  unfold guarded
  split
  · exact kept
  · rfl

@[simp] theorem State.pending_run (c : Command) : (s.run c).pending = s.pending := by
  cases c with
  | nop | status | readPeers => exact s.pending_guarded _ rfl
  | stop => exact s.pending_guarded _ (s.pending_enterStopped .stop)
  | snapshot => exact s.pending_guarded _ (s.pending_enterLog _)
  | configure block | start | readLog count | readReports count =>
    refine s.pending_guarded _ ?_
    split <;> rfl
  | post scope fields =>
    refine s.pending_guarded _ ?_
    split
    · rfl
    split
    · rfl
    split
    · exact s.pending_insert _
    · exact s.pending_sendCommand _ _
  | amend scope selector serial new =>
    refine s.pending_guarded _ ?_
    split
    · rfl
    split
    · exact s.pending_amendEntry _ _
    · exact s.pending_sendCommand _ _
  | cancel scope selector serial =>
    refine s.pending_guarded _ ?_
    split
    · rfl
    split
    · exact s.pending_cancelEntry _
    · exact s.pending_sendCommand _ _
  | find origin serial =>
    refine s.pending_guarded _ ?_
    split
    · rfl
    dsimp only
    split <;> rfl
  | drive line kind =>
    refine s.pending_guarded _ ?_
    split
    · rfl
    split <;> rfl

/-! ### What leaves the queue: frames and attempts -/

@[simp] theorem State.pending_takeBeacon (sender : Station) (time : Time) (body : BeaconBody) (sof : Option SofRecord) :
    (s.takeBeacon sender time body sof).pending = s.pending := by
  have recorded : (s.recordBeacon sender time body sof).pending = s.pending := by
    unfold recordBeacon
    split <;> rfl
  unfold takeBeacon
  cases s.member.state with
  | listen =>
    dsimp only
    split <;> rfl
  | joining | member => exact recorded
  | unconfigured | ready | stopped => rfl

@[simp] theorem State.pending_takeRemote (atOnce : Bool) (sender : Station) (p : Payload) :
    (s.takeRemote atOnce sender p).pending = s.pending := by
  unfold takeRemote
  split
  · dsimp only
    split
    · exact pending_takeAllHandedOn _
    · rfl
  · rfl

@[simp] theorem State.pending_takeEvent (sender : Station) (selector : Half) (channel : Fin 8) (edge : EdgeDir) (stamp : Time)
    (sequence : Half) : (s.takeEvent sender selector channel edge stamp sequence).pending = s.pending := by
  unfold takeEvent
  split
  · exact s.pending_enterLog _
  · rfl

@[simp] theorem State.pending_takeRefuse (sender origin : Station) (serial : Half) (reason : Byte) :
    (s.takeRefuse sender origin serial reason).pending = s.pending := by
  unfold takeRefuse
  split <;> rfl

@[simp] theorem State.pending_handOn (atOnce : Bool) (f : Frame) (sof : Option SofRecord) :
    (s.handOn atOnce f sof).pending = s.pending := by
  unfold handOn
  split
  · exact s.pending_enterStopped _
  · cases f.payload with
    | beacon time body => exact s.pending_takeBeacon _ _ _ _
    | action fields => exact s.pending_takeRemote _ _ _
    | amend selector serial new => exact s.pending_takeRemote _ _ _
    | cancel selector serial => exact s.pending_takeRemote _ _ _
    | event selector channel edge stamp sequence => exact s.pending_takeEvent _ _ _ _ _ _
    | refuse origin serial reason => exact s.pending_takeRefuse _ _ _ _

@[simp] theorem State.pending_receive (atOnce : Bool) (f : PartialFrame) (samples : List Bool) :
    (s.receive atOnce f samples).pending = s.pending := by
  unfold receive
  dsimp only
  cases takeSamples f samples with
  | more f' => rfl
  | truncated => rfl
  | error => rfl
  | valid frame => exact pending_handOn _ _ _ _

@[simp] theorem State.pending_complete (atOnce : Bool) (samples : List Bool) : (s.complete atOnce samples).pending = s.pending := by
  unfold complete
  split
  · exact s.pending_receive _ _ _
  · rfl

@[simp] theorem State.pending_selfDeliver (p : Payload) : (s.selfDeliver p).pending = s.pending := by
  have claimed := s.pending_applyClaim s.number .selfDelivery p
  unfold selfDeliver
  split
  · split <;> rename_i answer <;> rw [answer] at claimed <;> exact claimed
  · rfl

@[simp] theorem State.pending_transmissionSucceeded : s.transmissionSucceeded.pending = s.pending := by
  unfold transmissionSucceeded
  split
  · rfl
  · dsimp only
    split
    · rfl
    · exact pending_selfDeliver _ _

@[simp] theorem State.pending_transmissionFailed : s.transmissionFailed.pending = s.pending := by
  unfold transmissionFailed
  split
  · rfl
  split
  · rfl
  split <;> rfl

@[simp] theorem State.pending_afterMismatch (bit : Nat) : (s.afterMismatch bit).pending = s.pending := by
  unfold afterMismatch
  dsimp only
  cases s.line.afterSend with
  | off | seek => rfl
  | inStep => exact pending_receive _ _ _ _

@[simp] theorem State.pending_stick : s.stick.pending = s.pending := by
  unfold stick
  dsimp only
  split <;> rfl

@[simp] theorem State.pending_startFrame (place : Nat) : (s.startFrame place).pending = s.pending := by
  unfold startFrame
  split <;> rfl

/-! ### What leaves the queue: the events of time and the tick -/

@[simp] theorem State.pending_fireOwed : s.fireOwed.pending = s.pending := by
  unfold fireOwed
  split
  · rfl
  split
  · exact s.pending_fireDue _
  · rfl

@[simp] theorem State.pending_evaluationOwed (turn : LineTurn) : (s.evaluationOwed turn).pending = s.pending := by
  unfold evaluationOwed
  split
  · exact s.pending_evaluation turn
  · rfl

@[simp] theorem State.pending_boundaryOwed (turn : LineTurn) : (s.boundaryOwed turn).pending = s.pending := by
  unfold boundaryOwed boundary
  split
  · rw [pending_takeHandedVerdict, pending_evaluation]
  · rfl

@[simp] theorem State.pending_foundOwed : s.foundOwed.pending = s.pending := by
  unfold foundOwed
  split <;> rfl

@[simp] theorem State.pending_runDue : s.runDue.pending = s.pending := by
  unfold runDue
  split
  · split
    · exact s.pending_run _
    · rfl
  · rfl
  · rfl

/-- What is left of the last tick is taken without the queue (log 1). -/
@[simp] theorem State.pending_settle : s.settle.pending = s.pending := by
  have kept {f : State → Fin 8 → State} (each : ∀ u i, (f u i).pending = u.pending) (l : List (Fin 8)) (u : State) :
      (l.foldl f u).pending = u.pending :=
    List.foldlRecOn (motive := fun v : State => v.pending = u.pending) _ _ rfl fun v same i _ => (each v i).trans same
  rw [settle_eq_beforeDue, pending_runDue]
  unfold beforeDue
  generalize List.finRange 8 = each
  rw [pending_foundOwed, kept fun u i => u.pending_qualify true i, pending_boundaryOwed, pending_fireOwed,
    kept fun u l => u.pending_endPulse l]
  simp

@[simp] theorem State.pending_tickNow (levels : BitVec 8) : (s.tickNow levels).pending = s.pending := by
  cases timed : s.clock.cluster with
  | none => simp [s.tickNow_of_untimed levels timed]
  | some c => simp [s.tickNow_of_timed levels timed]

/-! ### The rows -/

/-- The outcome of a row on `s` is a next state, with the queue of `s`. -/
def KeepsQueue (r : Result) : Prop := ∃ t, r = .next t ∧ t.pending = s.pending

variable {s}

theorem KeepsQueue.next {t : State} (same : t.pending = s.pending) : KeepsQueue s (.next t) := ⟨t, rfl, same⟩

variable (s)

/-- A row of a command executes nothing, or a command (R172). -/
theorem row_keepsQueue (c : Command) : KeepsQueue s (exec c.row s) := by
  rcases exec_row_cases s c with same | ⟨d, runs⟩
  · rw [same]
    exact .next rfl
  · rw [runs]
    exact .next (s.pending_run d)

theorem lineIdle_keepsQueue : KeepsQueue s (execLineIdle s) := by
  unfold execLineIdle
  split <;> exact .next rfl

theorem idleSlot_keepsQueue : KeepsQueue s (execIdleSlot s) := by
  unfold execIdleSlot
  split
  · dsimp only
    split
    · exact .next rfl
    split
    · exact .next (State.pending_startFrame _ _)
    · exact .next rfl
  · exact .next rfl

theorem startOfFrame_keepsQueue : KeepsQueue s (execStartOfFrame s) := by
  unfold execStartOfFrame
  split <;> exact .next rfl

theorem frameTruncated_keepsQueue : KeepsQueue s (execFrameTruncated s) := by
  unfold execFrameTruncated
  split
  · split <;> exact .next rfl
  · exact .next rfl

theorem transmissionSuccess_keepsQueue : KeepsQueue s (execTransmissionSuccess s) := by
  unfold execTransmissionSuccess
  split
  · exact .next (State.pending_transmissionSucceeded _)
  · exact .next rfl

theorem readbackMismatch_keepsQueue (bit : Nat) : KeepsQueue s (execReadbackMismatch bit s) := by
  unfold execReadbackMismatch
  split
  · exact .next ((State.pending_afterMismatch _ bit).trans s.pending_transmissionFailed)
  · exact .next rfl

/-- A line that sticks in SEND fails the attempt first (log 11). -/
theorem lineStuck_keepsQueue : KeepsQueue s (execLineStuck s) := by
  unfold execLineStuck
  cases s.line.receiver with
  | off | stuck => exact .next rfl
  | seek | wait | receive => exact .next s.pending_stick
  | send =>
    cases s.line.afterSend with
    | off => exact .next s.pending_transmissionFailed
    | inStep | seek => exact .next ((State.pending_stick _).trans s.pending_transmissionFailed)

theorem stuckRunEnd_keepsQueue : KeepsQueue s (execStuckRunEnd s) := by
  unfold execStuckRunEnd
  split <;> exact .next rfl

theorem lineReleased_keepsQueue : KeepsQueue s (execLineReleased s) := by
  unfold execLineReleased
  split <;> exact .next rfl

theorem rejectedStartEdge_keepsQueue : KeepsQueue s (execRejectedStartEdge s) := by
  unfold execRejectedStartEdge
  cases s.line.receiver with
  | off | send | stuck | seek | wait => exact .next rfl
  | receive =>
    dsimp only
    split
    · exact .next rfl
    split <;> exact .next rfl

theorem transactionBegin_keepsQueue : KeepsQueue s (execTransactionBegin s) := by
  unfold execTransactionBegin State.beginTransaction
  split
  · split <;> exact .next rfl
  · exact .next rfl

theorem transactionEnd_keepsQueue (bits cut : List Bool) : KeepsQueue s (execTransactionEnd bits cut s) := by
  unfold execTransactionEnd State.endTransaction
  split
  · exact .next rfl
  split
  · exact .next rfl
  split <;> exact .next rfl

/-- Every row answers a next state and leaves the queue. A row of a command runs the command that the port holds, so that the parameters
named here are of no account. -/
theorem everyRow_keepsQueue (i : Instr) : KeepsQueue s (exec i s) := by
  cases i with
  | hardwareReset => exact .next rfl
  | tick levels => exact .next ((s.settle.pending_tickNow levels).trans s.pending_settle)
  | roundBoundary event =>
    cases event with
    | whole turn => exact .next (s.pending_boundaryOwed turn)
    | evaluation turn => exact .next (s.pending_evaluationOwed turn)
    | verdict => exact .next s.pending_takeHandedVerdict
  | listenWindowExpiry => exact .next s.pending_foundOwed
  | firing => exact .next s.pending_fireOwed
  | pulseEnd line => exact .next (s.pending_endPulse line)
  | edgeQualified event =>
    cases event with
    | whole input => exact .next (s.pending_qualify true input)
    | handOver input => exact .next (s.pending_qualify false input)
    | insertion => exact .next s.pending_insertNext
  | frameCompletion event =>
    cases event with
    | whole samples => exact .next (s.pending_complete true samples)
    | handOver samples => exact .next (s.pending_complete false samples)
    | next => exact .next s.pending_takeHandedOn
  | lineIdle => exact lineIdle_keepsQueue s
  | idleSlot => exact idleSlot_keepsQueue s
  | startOfFrame => exact startOfFrame_keepsQueue s
  | frameTruncated => exact frameTruncated_keepsQueue s
  | transmissionSuccess => exact transmissionSuccess_keepsQueue s
  | readbackMismatch bit => exact readbackMismatch_keepsQueue s bit
  | lineStuck => exact lineStuck_keepsQueue s
  | lineReleased => exact lineReleased_keepsQueue s
  | stuckRunEnd => exact stuckRunEnd_keepsQueue s
  | rejectedStartEdge => exact rejectedStartEdge_keepsQueue s
  | transactionBegin => exact transactionBegin_keepsQueue s
  | transactionEnd bits cut => exact transactionEnd_keepsQueue s bits cut
  | nop => exact row_keepsQueue s .nop
  | status => exact row_keepsQueue s .status
  | configure => exact row_keepsQueue s (.configure [])
  | start => exact row_keepsQueue s .start
  | stop => exact row_keepsQueue s .stop
  | post => exact row_keepsQueue s (.post 0 (actionFieldsAt [] 0))
  | amend => exact row_keepsQueue s (.amend 0 0 0 ⟨0, 0⟩)
  | cancel => exact row_keepsQueue s (.cancel 0 0 0)
  | find => exact row_keepsQueue s (.find 0 0)
  | readLog => exact row_keepsQueue s (.readLog 0)
  | readReports => exact row_keepsQueue s (.readReports 0)
  | readPeers => exact row_keepsQueue s .readPeers
  | snapshot => exact row_keepsQueue s .snapshot
  | drive => exact row_keepsQueue s (.drive 0 0)

end

/-- Settles O2: idling by the step of an empty queue, and what every row leaves of the queue. -/
theorem queueDiscipline : Obligations.QueueDiscipline :=
  ⟨fun _ => step_of_pending_nil, fun c s => everyRow_keepsQueue s c⟩

end Sys2Proof.Machine
end
